-- ==== Sys2Proof/Word.lean ====
section
/-! DEFINITION. The words of CRC8-SEQ (00_scope.md R12): a byte is 8 bits, a word is 16 bits, a bus
address is 7 bits, and every value is unsigned. -/

namespace Sys2Proof

/-- An 8-bit unsigned value (R12). -/
abbrev Byte := BitVec 8

/-- A 16-bit unsigned value (R12). -/
abbrev Word := BitVec 16

/-- A 7-bit two-wire bus address (R33, R63). -/
abbrev BusAddr := BitVec 7

end Sys2Proof
end

