-- ==== Sys2Proof/Config.lean ====
section
/-! DEFINITION. The constants the source fixes (00_scope.md R10), the parameters it leaves open
(R11), and the free value of the bus oracle (20_memory.md R62). A constant declared `opaque` has no
body: nothing can be proved of its value. -/

namespace Sys2Proof

namespace Config

/-- `CRC_POLY` (R10): x^8+x^5+x^4+1, the high term implicit. -/
def crcPoly : Byte := 0x31

/-- `CRC_INIT` (R10). -/
def crcInit : Byte := 0xFF

/-- `DEV_ADDR` (R10): the 7-bit address of the peer. -/
def devAddr : BusAddr := 0x58

/-- `CMD_INIT` (R10): "start periodic measurement". -/
def cmdInit : Word := 0x2003

/-- `CMD_MEASURE` (R10): "trigger measurement". -/
def cmdMeasure : Word := 0x2008

/-- `GROUP_BYTES` (R10): two data bytes and a checksum. -/
def groupBytes : Nat := 3

/-- `MEAS_WORDS` (R10): the words a measurement reads. -/
def measWords : Nat := 2

/-- `T_INIT_MIN` (R10): 10 ms. Times are whole nanoseconds (DESIGN CHOICE, log 8). -/
def tInitMin : Nat := 10000000

/-- `T_MEAS_MIN` (R10): 12 ms. -/
def tMeasMin : Nat := 12000000

end Config

/-- The number of whole ticks of length `tick` that last at least `t`: `ceil(t / tick)` (R11). -/
def ceilDiv (t tick : Nat) : Nat := (t + (tick - 1)) / tick

/-- The open parameters of R11 as an argument of the model: `TICK`, `T_INIT_WAIT`, `T_MEAS_WAIT` (in
nanoseconds) and `W_CNT` (in bits). -/
structure Params where
  tick      : Nat
  tInitWait : Nat
  tMeasWait : Nat
  wCnt      : Nat
  deriving DecidableEq, Repr

/-- The constraints R11 puts on the parameters: a tick has a length, each wait is at least its
minimum, and `W_CNT` bits hold `ceil(max(T_INIT_WAIT, T_MEAS_WAIT) / TICK)`. -/
abbrev Params.Legal (p : Params) : Prop :=
  0 < p.tick ∧ Config.tInitMin ≤ p.tInitWait ∧ Config.tMeasMin ≤ p.tMeasWait ∧
    ceilDiv (max p.tInitWait p.tMeasWait) p.tick < 2 ^ p.wCnt

/-- The bus port's answer to one transaction (20_memory.md R61, R62). A write's `Ok` carries no
bytes, so `data` is read by a frame read only (log 4). -/
inductive BusOutcome where
  /-- No outcome ever comes (60_exceptions.md R207): the sequence waits with the transaction. -/
  | never
  /-- `Err`: the source's TransportError. -/
  | err
  /-- `Ok`, or `Ok(data)` with any bytes of any length. -/
  | ok (data : List Byte)
  deriving DecidableEq, Repr, Inhabited

namespace Config

/-- How much longer than one nanosecond a tick is. Open (R11). -/
opaque tickExtra : Nat

/-- How much longer than `T_INIT_MIN` the actual wait is. Open, no upper bound (R11, R241). -/
opaque initExtra : Nat

/-- How much longer than `T_MEAS_MIN` the actual wait is. Open, no upper bound (R11, R241). -/
opaque measExtra : Nat

/-- How many bits wider than it must be the wait counter is. Open (R11). -/
opaque cntExtra : Nat

/-- The oracle's answer to the `n`-th transaction where no answer is named in `State.bus`: a free
value, any outcome at all (R62, 93_implementation_defined.md U15, log 3). -/
opaque busOutcome : Nat → BusOutcome

/-- The parameters of this implementation, unknown but legal. -/
def params : Params where
  tick := 1 + tickExtra
  tInitWait := tInitMin + initExtra
  tMeasWait := tMeasMin + measExtra
  wCnt := Nat.log2 (ceilDiv (max (tInitMin + initExtra) (tMeasMin + measExtra)) (1 + tickExtra)) + 1
    + cntExtra

end Config

end Sys2Proof
end

