-- ==== Sys2Proof/Syntax.lean ====
section
/-! DEFINITION. The instructions of CRC8-SEQ: the five host requests (30_encoding.md R92) and the two
wire commands (R99), one constructor for each row of spec/opcode_table.json. -/

namespace Sys2Proof

/-- One row of the opcode table each. The one operand of the set is CRC.BYTE's `ARG`, an unsigned
byte used as it stands (R93). -/
inductive Instr where
  /-- `INIT`, H16 word 0x1000 (42_sequencer.md R161). -/
  | init
  /-- `MEASURE`, H16 word 0x2000 (R166). -/
  | measure
  /-- `CRC.CLR`, H16 word 0x3000 (40_crc.md R125). -/
  | crcClr
  /-- `CRC.BYTE b`, H16 word 0x4000 with `ARG = b` (R126). -/
  | crcByte (b : Byte)
  /-- `GETSTATE`, H16 word 0x5000 (R175). -/
  | getstate
  /-- `CMD_INIT`, W16 word 0x2003: the command write of an INIT (R99, R143). -/
  | cmdInit
  /-- `CMD_MEASURE`, W16 word 0x2008: the command write of a MEASURE (R99, R143). -/
  | cmdMeasure
  deriving DecidableEq, Repr

end Sys2Proof
end

