-- ==== Sys2Proof/WellFormed.lean ====
section
/-! DEFINITION. Which instruction belongs on which port. Operands need no check of their own: the one
operand, `ARG`, is a byte by its type. What can be ill-formed is a term on a port that does not carry
its format: each port carries exactly one kind of unit (30_encoding.md R90), so a wire command is no
request and a request is no wire command. -/

namespace Sys2Proof

/-- The ports an instruction word arrives on: the host channel (H16, R91) and the command buffer that
feeds the bus (W16, R99). -/
inductive Port where
  | host
  | wire
  deriving DecidableEq, Repr

/-- The port of each instruction: the `format` column of the opcode table. -/
def Instr.port : Instr → Port
  | .init => .host
  | .measure => .host
  | .crcClr => .host
  | .crcByte _ => .host
  | .getstate => .host
  | .cmdInit => .wire
  | .cmdMeasure => .wire

/-- `i` may stand on port `p` (R90). -/
def WellFormed (p : Port) (i : Instr) : Bool := i.port == p

end Sys2Proof
end

