-- ==== Sys2Proof/Decode.lean ====
section
/-! DEFINITION. Decoding of the two 16-bit formats (30_encoding.md R91 to R95, R99), total and
rejecting by name, and the encoder of each instruction from the same tables. -/

namespace Sys2Proof

/-- Why a word does not decode. The order is R94's: the first check that fails decides. -/
inductive DecodeError where
  /-- `OP` is 0x0 or 0x6 to 0xF (R95). -/
  | reservedOp
  /-- `RSV` is not 0 (R95). -/
  | reservedField
  /-- `ARG` is not 0 on a request other than CRC.BYTE (R95). -/
  | argNotZero
  /-- The word on the wire port is neither of the two commands (R99). -/
  | notACommand
  deriving DecidableEq, Repr

/-- `OP`, bits 15:12 (R91). -/
def opField (w : Word) : BitVec 4 := w.extractLsb' 12 4

/-- `RSV`, bits 11:8 (R91). -/
def rsvField (w : Word) : BitVec 4 := w.extractLsb' 8 4

/-- `ARG`, bits 7:0 (R91). -/
def argField (w : Word) : Byte := w.extractLsb' 0 8

/-- A request whose `ARG` must be 0 (R94, third check). -/
def decodeNoArg (arg : Byte) (i : Instr) : Except DecodeError Instr :=
  if arg = 0 then .ok i else .error .argNotZero

/-- The request named by a legal `OP`, with the last check of R94. -/
def decodeOp (op : BitVec 4) (arg : Byte) : Except DecodeError Instr :=
  if op = 1 then decodeNoArg arg .init
  else if op = 2 then decodeNoArg arg .measure
  else if op = 3 then decodeNoArg arg .crcClr
  else if op = 4 then .ok (.crcByte arg)
  else decodeNoArg arg .getstate

/-- The request decoder of R94, on all 65,536 words: `OP`, then `RSV`, then `ARG`. -/
def decodeRequest (w : Word) : Except DecodeError Instr :=
  if opField w = 0 ∨ 5 < opField w then .error .reservedOp
  else if rsvField w ≠ 0 then .error .reservedField
  else decodeOp (opField w) (argField w)

/-- The command decoder of R99: exactly two words are commands. -/
def decodeCommand (w : Word) : Except DecodeError Instr :=
  if w = Config.cmdInit then .ok .cmdInit
  else if w = Config.cmdMeasure then .ok .cmdMeasure
  else .error .notACommand

/-- The decoder of each port (R90). -/
def decode (p : Port) (w : Word) : Except DecodeError Instr :=
  match p with
  | .host => decodeRequest w
  | .wire => decodeCommand w

/-- The word of each instruction: its match value, with CRC.BYTE's operand in `ARG` (R92, R99, R102). -/
def encode : Instr → Word
  | .init => 0x1000
  | .measure => 0x2000
  | .crcClr => 0x3000
  | .crcByte b => 0x4000 ||| b.setWidth 16
  | .getstate => 0x5000
  | .cmdInit => Config.cmdInit
  | .cmdMeasure => Config.cmdMeasure

/-- The bits of a row's word that its mask fixes (the opcode table's `mask` column). -/
def rowMask : Instr → Word
  | .init => 0xFFFF
  | .measure => 0xFFFF
  | .crcClr => 0xFFFF
  | .crcByte _ => 0xFF00
  | .getstate => 0xFFFF
  | .cmdInit => 0xFFFF
  | .cmdMeasure => 0xFFFF

/-- The value of those bits (the opcode table's `match` column). -/
def rowMatch : Instr → Word
  | .init => 0x1000
  | .measure => 0x2000
  | .crcClr => 0x3000
  | .crcByte _ => 0x4000
  | .getstate => 0x5000
  | .cmdInit => 0x2003
  | .cmdMeasure => 0x2008

/-- The 16-bit unit whose bits are `w`; every bit above `nbits` is 0. -/
def tableWord (nbits w : Nat) : Word := BitVec.ofNat 16 (w % 2 ^ nbits)

/-- The instruction of a word of the opcode table, whichever port's format the row is in. The two
formats share no word: `decodeRequest` refuses 0x2003 and 0x2008 (95_test_vectors.md V-ENC-19), so
the order in which the ports are tried does not matter (DEDUCED, log 9). -/
def decodeTableWord (nbits w : Nat) : Option Instr :=
  match decodeRequest (tableWord nbits w) with
  | .ok i => some i
  | .error _ =>
    match decodeCommand (tableWord nbits w) with
    | .ok i => some i
    | .error _ => none

end Sys2Proof
end

