-- ==== Sys2Proof/Machine/State.lean ====
section
/-! DEFINITION. The state of the machine as plain data: every register of 10_state.md R30, the host
channel (30_encoding.md R98, 70_reset_and_hazards.md R231), what the block has sent (responses and
bus transactions), and what the outside world will do next (the host's moves, the oracle's answers,
the reset line). -/

namespace Sys2Proof.Machine

/-- The five values of the `state` register (R32); codes 5 to 7 are never held, so they do not exist. -/
inductive SeqState where
  | uninitialized
  | initializing
  | ready
  | measuring
  | failed
  deriving DecidableEq, Repr

/-- The encoding of `state` (R32). -/
def SeqState.code : SeqState → BitVec 3
  | .uninitialized => 0
  | .initializing => 1
  | .ready => 2
  | .measuring => 3
  | .failed => 4

/-- The five values of the `step` register (R35), the block's program counter. -/
inductive Step where
  | idle
  | cmdWrite
  | wait
  | dataRead
  | check
  deriving DecidableEq, Repr

/-- The encoding of `step` (R35). -/
def Step.code : Step → BitVec 3
  | .idle => 0
  | .cmdWrite => 1
  | .wait => 2
  | .dataRead => 3
  | .check => 4

/-- The two values of `cur_op` (R36): which sequence runs. -/
inductive Op where
  | init
  | measure
  deriving DecidableEq, Repr

/-- The encoding of `cur_op` (R36). -/
def Op.code : Op → BitVec 1
  | .init => 0
  | .measure => 1

/-- The status codes a response can carry (30_encoding.md R96). -/
inductive Status where
  | ok
  | eTransport
  | eIntegrity
  | eState
  | eIllegal
  deriving DecidableEq, Repr

/-- A host response: `STATUS` and the 32-bit `DATA` (R96). -/
structure Response where
  status : Status
  data   : BitVec 32
  deriving DecidableEq, Repr

/-- One move of the host while no response is outstanding (70_reset_and_hazards.md R250): issue a
request word, or let one tick of time pass. -/
inductive HostMove where
  | issue (w : Word)
  | pause
  deriving DecidableEq, Repr

/-- One entry of the bus history, stamped with the clock: a finished transaction (20_memory.md R67), or
a reset and the step it cut (70_reset_and_hazards.md R232). -/
inductive BusEvent where
  /-- A command write: address, bytes in wire order, whether the port returned `Ok`, and when. -/
  | write (addr : BusAddr) (bytes : List Byte) (ok : Bool) (time : Nat)
  /-- A frame read: address, byte count asked for, the bytes of `Ok` or none for `Err`, and when. -/
  | read (addr : BusAddr) (count : Nat) (answer : Option (List Byte)) (time : Nat)
  /-- A reset, the value `step` had, and when. -/
  | reset (cut : Step) (time : Nat)
  deriving DecidableEq, Repr

/-- Where the model stops. No run of the rules reaches either (10_state.md R44 and the treatment
`fault` of 93_implementation_defined.md; log 11). Stopping there is safe: no claim about a next state
can be proved of such a state. -/
inductive Fault where
  /-- Raised by the step at CMD_WRITE when `cmd_buf` holds neither command word: the block sends exactly
  those two (R99). Safe. -/
  | undefinedCommand
  /-- Raised by the step at DATA_READ or CHECK while `cur_op` says INIT: an INIT has no such action
  (42_sequencer.md R177). Safe. -/
  | noSuchAction
  deriving DecidableEq, Repr

/-- What the model gives no meaning. -/
inductive Refusal where
  /-- Raised by an arm of `exec` for an instruction without a meaning. Every instruction has one, so no
  arm raises it. Safe. -/
  | notModelled (mnemonic : String)
  deriving DecidableEq, Repr

/-- The machine. The first nine fields are the registers of R30 less the hardwired `dev_addr` (see
`State.devAddr`) and the host channel; the next two are what the block has sent; the rest are the
model's inputs and clock. -/
structure State where
  /-- `state[2:0]` (R32). -/
  state     : SeqState
  /-- `crc_acc[7:0]` (R34). -/
  crcAcc    : Byte
  /-- `step[2:0]` (R35). -/
  step      : Step
  /-- `cur_op` (R36). -/
  curOp     : Op
  /-- `cmd_buf[15:0]` (R37). -/
  cmdBuf    : Word
  /-- `rx_buf[0..5]` (R38). -/
  rxBuf     : Vector Byte 6
  /-- `wait_cnt` (R39). -/
  waitCnt   : Nat
  /-- `words[0..1]` (R40). -/
  words     : Vector Word 2
  /-- The host channel (R98, R231): empty, or the request accepted and not yet answered. -/
  channel   : Option Word
  /-- The responses given, newest first (R96). -/
  responses : List Response
  /-- The bus transactions and resets so far, newest first (R73, R232). -/
  busLog    : List BusEvent
  /-- The host's coming moves (R250). -/
  host      : List HostMove
  /-- The oracle's answers to the next transactions, as far as they are named (R62, R105). -/
  bus       : List BusOutcome
  /-- How many answers have been taken: the counter `Config.busOutcome` is applied to. -/
  busIdx    : Nat
  /-- The reset line at each coming step; past the end it is not asserted (R230). -/
  resets    : List Bool
  /-- Ticks of elapsed time the model has counted (R241). -/
  clock     : Nat
  /-- The implementation parameters of R11; no step writes them. -/
  params    : Params
  deriving DecidableEq, Repr

/-- The machine right after reset (70_reset_and_hazards.md R231). The values of `cur_op`, `cmd_buf`,
`rx_buf` and `words`, which R231 leaves unspecified, are named by log 1; the fields after `channel`
are the model's own (log 3, 5, 6, 7, 8, 13). -/
def State.reset : State where
  state := .uninitialized
  crcAcc := Config.crcInit
  step := .idle
  curOp := .init
  cmdBuf := 0
  rxBuf := #v[0, 0, 0, 0, 0, 0]
  waitCnt := 0
  words := #v[0, 0]
  channel := none
  responses := []
  busLog := []
  host := []
  bus := []
  busIdx := 0
  resets := []
  clock := 0
  params := Config.params

end Sys2Proof.Machine
end

