-- ==== Sys2Proof/Machine/Flags.lean ====
section
/-! DEFINITION. CRC8-SEQ has no flags and no condition codes (10_state.md R41): the outcome of a request
is the STATUS of its own response. So this file holds the status codes and the 36-bit response
format RSP36 (30_encoding.md R96). -/

namespace Sys2Proof.Machine

/-- The code of each status (R96). -/
def Status.code : Status → BitVec 4
  | .ok => 0
  | .eTransport => 1
  | .eIntegrity => 2
  | .eState => 3
  | .eIllegal => 4

/-- The status of a code; codes 0x5 to 0xF are never produced (R96). -/
def Status.ofCode (c : BitVec 4) : Option Status :=
  if c = 0 then some .ok
  else if c = 1 then some .eTransport
  else if c = 2 then some .eIntegrity
  else if c = 3 then some .eState
  else if c = 4 then some .eIllegal
  else none

/-- RSP36 (R96): `STATUS` in bits 35:32, `DATA` in bits 31:0. -/
def Response.rsp36 (r : Response) : BitVec 36 := r.status.code ++ r.data

/-- The response an RSP36 value carries, if its status code is one of the five. -/
def Response.ofRsp36 (v : BitVec 36) : Option Response :=
  match Status.ofCode (v.extractLsb' 32 4) with
  | some st => some ⟨st, v.extractLsb' 0 32⟩
  | none => none

end Sys2Proof.Machine
end

