-- ==== Sys2Proof/Machine/Operands.lean ====
section
/-! DEFINITION. The byte and word conversions every unit uses: zero extension into `DATA`
(00_scope.md R12), big-endian encoding and decoding (20_memory.md R64; 41_wire.md R141, R142), the
constants each sequence works with (00_scope.md R10), and the partition of a frame. -/

namespace Sys2Proof.Machine

/-- `zext_32(v)` of R12. -/
def zext32 {n : Nat} (v : BitVec n) : BitVec 32 := v.setWidth 32

/-- Bits 15:8 of a word. -/
def hiByte (w : Word) : Byte := w.extractLsb' 8 8

/-- Bits 7:0 of a word. -/
def loByte (w : Word) : Byte := w.extractLsb' 0 8

/-- `encodeCommand(w)` (R141): the two bytes of a command word, high byte first. -/
def encodeCommand (w : Word) : List Byte := [hiByte w, loByte w]

/-- The word whose high byte is `hi` and whose low byte is `lo`: `{hi, lo}` of R12. -/
def wordOf (hi lo : Byte) : Word := hi ++ lo

/-- `be16(s)` (R142), for a sequence of two bytes; no other sequence has a word. -/
def be16 : List Byte → Option Word
  | [hi, lo] => some (wordOf hi lo)
  | _ => none

/-- The command word of each sequence (R10, R99). -/
def Op.command : Op → Word
  | .init => Config.cmdInit
  | .measure => Config.cmdMeasure

/-- The request word that starts each sequence (30_encoding.md R92). -/
def Op.request : Op → Word
  | .init => 0x1000
  | .measure => 0x2000

/-- The state a sequence holds while it runs (10_state.md R32). -/
def Op.running : Op → SeqState
  | .init => .initializing
  | .measure => .measuring

/-- The state a transport error leaves (60_exceptions.md R202): FAILED for INIT, READY for MEASURE. -/
def Op.afterError : Op → SeqState
  | .init => .failed
  | .measure => .ready

/-- The actual wait of each sequence (R11). -/
def Op.waitTime (p : Params) : Op → Nat
  | .init => p.tInitWait
  | .measure => p.tMeasWait

/-- The least wait the source allows each sequence (R10, R241). -/
def Op.minWait : Op → Nat
  | .init => Config.tInitMin
  | .measure => Config.tMeasMin

/-- The bound of `wait_cnt` (10_state.md R39): the ticks that cover the actual wait. -/
def Op.waitTicks (p : Params) (op : Op) : Nat := ceilDiv (op.waitTime p) p.tick

/-- The six bytes of a frame, or nothing when the count is not six (20_memory.md R68). -/
def frameOf : List Byte → Option (Vector Byte 6)
  | [b0, b1, b2, b3, b4, b5] => some #v[b0, b1, b2, b3, b4, b5]
  | _ => none

end Sys2Proof.Machine
end

