-- ==== Sys2Proof/Machine/Ops.lean ====
section
/-! DEFINITION. The shared operations: answering the host, the error path, accepting a sequence, taking
the oracle's answer to a bus transaction, time, and reset. -/

namespace Sys2Proof.Machine

/-- `dev_addr` (10_state.md R33): hardwired to 0x58, the same in every state. -/
def State.devAddr (_ : State) : BusAddr := Config.devAddr

/-- `respond(st, d)` (00_scope.md R16): the request is over, `step` is IDLE and the channel is empty. -/
def State.respond (st : Status) (d : BitVec 32) (s : State) : State :=
  { s with step := .idle, channel := none, responses := ⟨st, d⟩ :: s.responses }

/-- The error path `raise e(info)` (60_exceptions.md R201): `step` to IDLE, `state` to what the raising
rule names, and the response. The return from an error is the host's next request (R210). -/
def State.raise (e : Status) (info : BitVec 32) (after : SeqState) (s : State) : State :=
  State.respond e info { s with state := after }

/-- A request made in a state where it is not valid (R204): nothing changes, `DATA` is `state`. -/
def State.raiseState (s : State) : State := s.raise .eState (zext32 s.state.code) s.state

/-- A request word that does not decode (R205): nothing changes, `DATA` is the word. -/
def State.raiseIllegal (w : Word) (s : State) : State := s.raise .eIllegal (zext32 w) s.state

/-- The acceptance of a sequence (42_sequencer.md R161, R166), and the channel it occupies until its
response (30_encoding.md R98). -/
def State.accept (op : Op) (s : State) : State :=
  { s with curOp := op, cmdBuf := op.command, state := op.running, step := .cmdWrite,
           channel := some op.request }

/-- The oracle's answer to the next transaction: the first of the named answers, else the free value
`Config.busOutcome` (20_memory.md R62, log 3). -/
def State.outcome (s : State) : BusOutcome := s.bus.headD (Config.busOutcome s.busIdx)

/-- Take that answer: each outcome is returned to one transaction only (R61). -/
def State.takeOutcome (s : State) : State := { s with bus := s.bus.tail, busIdx := s.busIdx + 1 }

/-- Record a finished command write to `dev_addr`. -/
def State.logWrite (bytes : List Byte) (ok : Bool) (s : State) : State :=
  { s with busLog := .write s.devAddr bytes ok s.clock :: s.busLog }

/-- Record a finished frame read from `dev_addr`. -/
def State.logRead (count : Nat) (answer : Option (List Byte)) (s : State) : State :=
  { s with busLog := .read s.devAddr count answer s.clock :: s.busLog }

/-- Start the wait of the running sequence (70_reset_and_hazards.md R241): the counter is loaded when the
command write's outcome is returned. -/
def State.startWait (s : State) : State := { s with step := .wait, waitCnt := 0 }

/-- One host pause: one tick passes while the block is idle (70 R248). -/
def State.hostPause (s : State) : State := { s with clock := s.clock + 1 }

/-- Is the reset line asserted at this step? -/
def State.resetLine (s : State) : Bool := s.resets.headD false

/-- The reset line has been sampled. -/
def State.sampleReset (s : State) : State := { s with resets := s.resets.tail }

/-- A transaction is in progress at CMD_WRITE and at DATA_READ. -/
def Step.onBus : Step → Bool
  | .idle => false
  | .cmdWrite => true
  | .wait => false
  | .dataRead => true
  | .check => false

/-- The outcome of a transaction that a reset cuts is discarded (70 R232). -/
def State.discardCut (s : State) : State := if s.step.onBus then s.takeOutcome else s

/-- Reset (70 R231, R232): every register takes its reset value and the channel is emptied with no
response. What was sent stays sent; the host, the oracle and the clock are outside the block. -/
def State.applyReset (s : State) : State :=
  { s with
    state := State.reset.state
    crcAcc := State.reset.crcAcc
    step := State.reset.step
    curOp := State.reset.curOp
    cmdBuf := State.reset.cmdBuf
    rxBuf := State.reset.rxBuf
    waitCnt := State.reset.waitCnt
    words := State.reset.words
    channel := State.reset.channel
    bus := s.discardCut.bus
    busIdx := s.discardCut.busIdx
    busLog := .reset s.step s.clock :: s.busLog }

/-- The host's next move is to issue `w`, and the block is ready to accept it (30_encoding.md R98). -/
def State.placeRequest (w : Word) (s : State) : State :=
  { s with step := .idle, channel := none, host := .issue w :: s.host }

/-- The block stands at the command write of the sequence `op` (42_sequencer.md R177). -/
def State.placeCommand (op : Op) (s : State) : State := s.accept op

/-- The reset line, if it is asserted at the next step, is released there. -/
def State.releaseReset (s : State) : State :=
  if s.resetLine then { s with resets := false :: s.resets.tail } else s

end Sys2Proof.Machine
end

