-- ==== Sys2Proof/Machine/Sequencer.lean ====
section
/-! DEFINITION. The requests of the sequencer (42_sequencer.md): INIT, MEASURE and GETSTATE, and the
timed wait of a running sequence. -/

namespace Sys2Proof.Machine

/-- `INIT` (R161): accepted only in UNINITIALIZED, else E_STATE (R164). -/
def execInit (s : State) : Host.Outcome State Fault Refusal :=
  .next (if s.state = .uninitialized then s.accept .init else s.raiseState)

/-- `MEASURE` (R166): accepted only in READY, else E_STATE (R170). -/
def execMeasure (s : State) : Host.Outcome State Fault Refusal :=
  .next (if s.state = .ready then s.accept .measure else s.raiseState)

/-- `GETSTATE` (R175): answers `state`. -/
def execGetstate (s : State) : Host.Outcome State Fault Refusal :=
  .next (s.respond .ok (zext32 s.state.code))

/-- The end of a wait (R161, R167): INIT becomes READY and answers OK, MEASURE goes on to its read. -/
def State.endWait (s : State) : State :=
  match s.curOp with
  | .init => State.respond .ok 0 { s with state := .ready }
  | .measure => { s with step := .dataRead }

/-- One tick of the wait timer has passed (10_state.md R39). -/
def State.tick (s : State) : State := { s with waitCnt := s.waitCnt + 1, clock := s.clock + 1 }

/-- One tick at WAIT: the wait ends when the counter reaches its bound (70_reset_and_hazards.md R241). -/
def State.waitTick (s : State) : State :=
  if s.tick.waitCnt < s.curOp.waitTicks s.params then s.tick else s.tick.endWait

end Sys2Proof.Machine
end

