-- ==== Sys2Proof/Machine/Wire.lean ====
section
/-! DEFINITION. The command encoder and the frame receiver (41_wire.md): the command write, the frame
read, the per-group check and the decode, and `parseFrame` as a pure function. -/

namespace Sys2Proof.Machine

/-- What the outcome of a command write does to the running sequence (42_sequencer.md R161 to R163, R166,
R167, R169 (a)): an error ends it, success starts its wait. -/
def State.finishWrite (bytes : List Byte) (o : BusOutcome) (s : State) : State :=
  match o with
  | .never => s
  | .err => (s.takeOutcome.logWrite bytes false).raise .eTransport 0 s.curOp.afterError
  | .ok _ => (s.takeOutcome.logWrite bytes true).startWait

/-- `SEND_COMMAND` (41_wire.md R143): one write transaction of the two bytes of `w`, in one indivisible
step (20_memory.md R69). While no outcome comes the sequence waits with it (60_exceptions.md R207). -/
def State.sendCommand (w : Word) (s : State) : State := s.finishWrite (encodeCommand w) s.outcome

/-- `CMD_INIT` on the wire: `[0x20, 0x03]` (30_encoding.md R99). -/
def execCmdInit (s : State) : Host.Outcome State Fault Refusal :=
  .next (s.sendCommand Config.cmdInit)

/-- `CMD_MEASURE` on the wire: `[0x20, 0x08]` (R99). -/
def execCmdMeasure (s : State) : Host.Outcome State Fault Refusal :=
  .next (s.sendCommand Config.cmdMeasure)

/-- The bytes a frame read asks for: `3 * MEAS_WORDS = 6` (20_memory.md R67). -/
def frameBytes : Nat := Config.groupBytes * Config.measWords

/-- What the outcome of a frame read does (R145, 42_sequencer.md R169 (b)): an error or a wrong length is
a transport error in the read phase; six bytes go to `rx_buf`. -/
def State.finishRead (o : BusOutcome) (s : State) : State :=
  match o with
  | .never => s
  | .err => (s.takeOutcome.logRead frameBytes none).raise .eTransport 1 .ready
  | .ok data =>
    match frameOf data with
    | none => (s.takeOutcome.logRead frameBytes (some data)).raise .eTransport 1 .ready
    | some f => { s.takeOutcome.logRead frameBytes (some data) with rxBuf := f, step := .check }

/-- `READ_DATA(2)` (R145): one read transaction. -/
def State.readData (s : State) : State := s.finishRead s.outcome

/-- The first group of `rx_buf` whose checksum is wrong (R146): groups are checked in order. -/
def firstBadGroup (f : Vector Byte 6) : Option (BitVec 2) :=
  if groupOk f[0] f[1] f[2] then
    if groupOk f[3] f[4] f[5] then none else some 1
  else some 0

/-- The two words of `rx_buf` (R147). -/
def frameWords (f : Vector Byte 6) : Vector Word 2 := #v[wordOf f[0] f[1], wordOf f[3] f[4]]

/-- `CHECK(2)` and the decode (R146 to R148; 42_sequencer.md R168, R169 (c)). -/
def State.checkFrame (s : State) : State :=
  match firstBadGroup s.rxBuf with
  | some i => s.raise .eIntegrity (zext32 i) .ready
  | none =>
    State.respond .ok ((frameWords s.rxBuf)[0] ++ (frameWords s.rxBuf)[1])
      { s with words := frameWords s.rxBuf, state := .ready }

/-- The result of `parseFrame` (R149). -/
inductive FrameResult where
  /-- `n = 0`, or a length other than `3 * n`: outside the domain (93_implementation_defined.md U18). -/
  | refused
  /-- `Err(i)`: the least index whose group fails. -/
  | bad (i : Nat)
  /-- `Ok(words)`. -/
  | ok (words : List Word)
  deriving DecidableEq, Repr

/-- The result with the word of one more good group in front. -/
def consWord (w : Word) : FrameResult → FrameResult
  | .refused => .refused
  | .bad i => .bad i
  | .ok ws => .ok (w :: ws)

/-- The groups from index `i` on, in order: the first that fails ends the parse. -/
def parseGroups : Nat → List Byte → FrameResult
  | i, hi :: lo :: c :: rest =>
    if groupOk hi lo c then consWord (wordOf hi lo) (parseGroups (i + 1) rest) else .bad i
  | _, [] => .ok []
  | _, _ => .refused

/-- `parseFrame(n, f)` (R149). -/
def parseFrame (n : Nat) (f : List Byte) : FrameResult :=
  if n = 0 ∨ f.length ≠ Config.groupBytes * n then .refused else parseGroups 0 f

end Sys2Proof.Machine
end

