-- ==== Sys2Proof/Machine/Dispatch.lean ====
section
/-! DEFINITION. `exec`: one arm per instruction, each one call of its meaning. -/

namespace Sys2Proof.Machine

def exec (i : Instr) (s : State) : Host.Outcome State Fault Refusal :=
  match i with
  | .init => Sys2Proof.Machine.execInit s
  | .measure => Sys2Proof.Machine.execMeasure s
  | .crcClr => Sys2Proof.Machine.execCrcClr s
  | .crcByte b => Sys2Proof.Machine.execCrcByte b s
  | .getstate => Sys2Proof.Machine.execGetstate s
  | .cmdInit => Sys2Proof.Machine.execCmdInit s
  | .cmdMeasure => Sys2Proof.Machine.execCmdMeasure s

end Sys2Proof.Machine
end

