-- ==== Sys2Proof/Machine/Fetch.lean ====
section
/-! DEFINITION. What the block does at each value of `step` (10_state.md R35; 42_sequencer.md R177): where
an instruction comes from (the host channel at IDLE, the command buffer at CMD_WRITE), and the
actions that are no instruction. -/

namespace Sys2Proof.Machine

/-- A request word issued by the host (30_encoding.md R94): a word that does not decode is E_ILLEGAL,
before any check of `state` (60_exceptions.md R208). -/
def acceptRequest (w : Word) (s : State) : Host.Outcome State Fault Refusal :=
  match decodeRequest w with
  | .ok i => exec i s
  | .error _ => .next (s.raiseIllegal w)

/-- IDLE: the host's next move, if it makes one (R98). -/
def stepIdle (s : State) : Host.Outcome State Fault Refusal :=
  match s.host with
  | [] => .next s
  | .pause :: rest => .next { s with host := rest }.hostPause
  | .issue w :: rest => acceptRequest w { s with host := rest }

/-- CMD_WRITE: run the command in `cmd_buf` (41_wire.md R143). -/
def stepCommand (s : State) : Host.Outcome State Fault Refusal :=
  match decodeCommand s.cmdBuf with
  | .ok i => exec i s
  | .error _ => .fault .undefinedCommand

/-- An action that only a MEASURE has (R177). -/
def stepMeasureOnly (act : State → State) (s : State) : Host.Outcome State Fault Refusal :=
  match s.curOp with
  | .init => .fault .noSuchAction
  | .measure => .next (act s)

/-- The block's next action (R35). -/
def stepBlock (s : State) : Host.Outcome State Fault Refusal :=
  match s.step with
  | .idle => stepIdle s
  | .cmdWrite => stepCommand s
  | .wait => .next s.waitTick
  | .dataRead => stepMeasureOnly State.readData s
  | .check => stepMeasureOnly State.checkFrame s

/-- Place the 16-bit word `word` where the machine fetches next: a wire command at CMD_WRITE of its own
sequence, anything else as the host's next request. -/
def State.placeWord (word : Word) (s : State) : State :=
  match decodeCommand word with
  | .ok .cmdInit => s.placeCommand .init
  | .ok .cmdMeasure => s.placeCommand .measure
  | _ => s.placeRequest word

end Sys2Proof.Machine
end

