-- ==== Sys2Proof/Machine/Step.lean ====
section
/-! DEFINITION. One step of the machine: a reset if the platform asserts it, else the block's action. -/

namespace Sys2Proof.Machine

/-- One step (00_scope.md R8): the reset line is sampled (70_reset_and_hazards.md R230); asserted, it
ends whatever runs (R232); else the block acts. -/
def step (s : State) : Host.Outcome State Fault Refusal :=
  match s.resetLine with
  | true => .next s.sampleReset.applyReset
  | false => stepBlock s.sampleReset

/-- `s` with the instruction `w` of `nbits` bits placed where the next step fetches (log 5, log 9). -/
def State.withFetchWord (s : State) (nbits w : Nat) : State :=
  (s.placeWord (tableWord nbits w)).releaseReset

end Sys2Proof.Machine
end

