-- ==== Sys2Proof/Machine/Assembler.lean ====
section
/-! DEFINITION. The assembler of host programs (30_encoding.md R102 to R104): what each line stands for,
the check of its operands, the request words it emits, and the reading of one line of text. The host
notations of R105 (`expect`, `bus`, `if … goto`) are not requests and are not encoded; a line that
begins with one is refused as an unknown mnemonic. -/

namespace Sys2Proof.Machine

/-- What one line of a host program can hold (R102 to R104). Operands are numbers as written. -/
inductive AsmItem where
  | init
  | measure
  | crcClr
  | crcByte (b : Nat)
  | getstate
  /-- `.word v`: a raw request word, emitted as it stands. -/
  | word (v : Nat)
  /-- `CRC.CALC b0, ..., bk`. -/
  | crcCalc (bs : List Nat)
  /-- `CRC.WORD w`. -/
  | crcWord (w : Nat)
  deriving DecidableEq, Repr

/-- A byte operand is in 0..255 (R102). -/
def isByte (n : Nat) : Bool := n < 256

/-- A word operand is a 16-bit value (R102, R104). -/
def isWord (n : Nat) : Bool := n < 65536

/-- The check of a line's operands: byte and word operands in range, at least one byte for CRC.CALC. -/
def AsmItem.wellFormed : AsmItem → Bool
  | .init => true
  | .measure => true
  | .crcClr => true
  | .crcByte b => isByte b
  | .getstate => true
  | .word v => isWord v
  | .crcCalc bs => !bs.isEmpty && bs.all isByte
  | .crcWord w => isWord w

/-- The expansion of CRC.CALC over a byte sequence (R103). -/
def calcInstrs (bs : List Byte) : List Instr := .crcClr :: bs.map .crcByte

/-- The expansion of CRC.WORD (R104). -/
def wordInstrs (w : Word) : List Instr := [.crcClr, .crcByte (hiByte w), .crcByte (loByte w)]

/-- The request words of a line: the match value of a plain mnemonic, `0x4000 | b` for CRC.BYTE, the value
of `.word`, and the words of a pseudo-instruction's expansion. -/
def AsmItem.words : AsmItem → List Word
  | .init => [encode .init]
  | .measure => [encode .measure]
  | .crcClr => [encode .crcClr]
  | .crcByte b => [encode (.crcByte (BitVec.ofNat 8 b))]
  | .getstate => [encode .getstate]
  | .word v => [BitVec.ofNat 16 v]
  | .crcCalc bs => (calcInstrs (bs.map (BitVec.ofNat 8))).map encode
  | .crcWord w => (wordInstrs (BitVec.ofNat 16 w)).map encode

/-- The host moves of a program: it issues the words in order. -/
def programMoves (items : List AsmItem) : List HostMove := (items.flatMap AsmItem.words).map .issue

/-- Why a line of text is refused. -/
inductive AsmError where
  | unknownMnemonic
  | badNumber
  | operandOutOfRange
  | operandCount
  deriving DecidableEq, Repr

/-- White space inside a line (DESIGN CHOICE, log 16: spaces and tabs). -/
def isBlank (c : Char) : Bool := c == ' ' || c == '\t'

/-- The text before a comment: `;` runs to the end of the line. -/
def stripComment (l : List Char) : List Char := l.takeWhile (· != ';')

/-- Without blanks at either end. -/
def trim (l : List Char) : List Char := ((l.dropWhile isBlank).reverse.dropWhile isBlank).reverse

/-- The first word of a trimmed text. -/
def firstWord (l : List Char) : List Char := l.takeWhile (fun c => !isBlank c)

/-- What follows the first word. -/
def afterWord (l : List Char) : List Char := trim (l.dropWhile (fun c => !isBlank c))

/-- A label `name:` at the start of a line is left out: only host control flow uses it (R105). -/
def stripLabel (l : List Char) : List Char :=
  if (firstWord l).getLast? = some ':' then afterWord l else l

/-- The pieces between commas. -/
def splitCommas : List Char → List (List Char)
  | [] => [[]]
  | c :: cs =>
    if c == ',' then [] :: splitCommas cs
    else match splitCommas cs with
      | [] => [[c]]
      | p :: ps => (c :: p) :: ps

/-- The value of a hexadecimal digit. -/
def hexDigit (c : Char) : Option Nat :=
  let n := c.toNat
  if 48 ≤ n ∧ n ≤ 57 then some (n - 48)
  else if 65 ≤ n ∧ n ≤ 70 then some (n - 55)
  else if 97 ≤ n ∧ n ≤ 102 then some (n - 87)
  else none

/-- The digits of a number in `base`, most significant first. -/
def readDigits (base : Nat) : List Char → Nat → Option Nat
  | [], acc => some acc
  | c :: cs, acc =>
    match hexDigit c with
    | some d => if d < base then readDigits base cs (acc * base + d) else none
    | none => none

/-- A number: `0x` and hexadecimal digits, or decimal digits. R102 gives both forms for a byte operand;
that the 16-bit operand of `.word` and CRC.WORD takes both too is DESIGN CHOICE, log 16. -/
def readNumber : List Char → Except AsmError Nat
  | '0' :: 'x' :: d :: ds =>
    match readDigits 16 (d :: ds) 0 with
    | some n => .ok n
    | none => .error .badNumber
  | d :: ds =>
    match readDigits 10 (d :: ds) 0 with
    | some n => .ok n
    | none => .error .badNumber
  | [] => .error .badNumber

/-- The numbers of a comma-separated operand list. -/
def readNumbers : List (List Char) → Except AsmError (List Nat)
  | [] => .ok []
  | p :: ps =>
    match readNumber (trim p) with
    | .error e => .error e
    | .ok n =>
      match readNumbers ps with
      | .error e => .error e
      | .ok ns => .ok (n :: ns)

/-- The operands of a line; no text is no operand. -/
def readOperands (l : List Char) : Except AsmError (List Nat) :=
  if l.isEmpty then .ok [] else readNumbers (splitCommas l)

/-- The item a mnemonic and its operands make. -/
def itemOf (mnemonic : List Char) (ops : List Nat) : Except AsmError AsmItem :=
  if mnemonic = ['I', 'N', 'I', 'T'] then
    if ops.isEmpty then .ok .init else .error .operandCount
  else if mnemonic = ['M', 'E', 'A', 'S', 'U', 'R', 'E'] then
    if ops.isEmpty then .ok .measure else .error .operandCount
  else if mnemonic = ['G', 'E', 'T', 'S', 'T', 'A', 'T', 'E'] then
    if ops.isEmpty then .ok .getstate else .error .operandCount
  else if mnemonic = ['C', 'R', 'C', '.', 'C', 'L', 'R'] then
    if ops.isEmpty then .ok .crcClr else .error .operandCount
  else if mnemonic = ['C', 'R', 'C', '.', 'B', 'Y', 'T', 'E'] then
    match ops with
    | [b] => .ok (.crcByte b)
    | _ => .error .operandCount
  else if mnemonic = ['.', 'w', 'o', 'r', 'd'] then
    match ops with
    | [v] => .ok (.word v)
    | _ => .error .operandCount
  else if mnemonic = ['C', 'R', 'C', '.', 'C', 'A', 'L', 'C'] then
    if ops.isEmpty then .error .operandCount else .ok (.crcCalc ops)
  else if mnemonic = ['C', 'R', 'C', '.', 'W', 'O', 'R', 'D'] then
    match ops with
    | [w] => .ok (.crcWord w)
    | _ => .error .operandCount
  else .error .unknownMnemonic

/-- The mnemonics of R102 to R104 (and the directive), to refuse an unknown one before its operands. -/
def knownMnemonic (m : List Char) : Bool :=
  match itemOf m [] with
  | .error .unknownMnemonic => false
  | _ => true

/-- One line of a host program (R102): the item it holds, or none for an empty line. -/
def readLine (l : List Char) : Except AsmError (Option AsmItem) :=
  let body := stripLabel (trim (stripComment l))
  if body.isEmpty then .ok none
  else if knownMnemonic (firstWord body) then
    match readOperands (afterWord body) with
    | .error e => .error e
    | .ok ops =>
      match itemOf (firstWord body) ops with
      | .error e => .error e
      | .ok item => if item.wellFormed then .ok (some item) else .error .operandOutOfRange
  else .error .unknownMnemonic

/-- The request words one line emits. -/
def assembleLine (l : List Char) : Except AsmError (List Word) :=
  match readLine l with
  | .error e => .error e
  | .ok none => .ok []
  | .ok (some item) => .ok item.words

end Sys2Proof.Machine
end

