-- ==== Sys2Proof/Safety.lean ====
section
/-! DEFINITION. What a legal state and a safe run are, in the terms the statements use: the legal
combinations of registers, the spacing of bus transactions in time, the host's duties, the shapes of
transactions and responses, and runs. -/

namespace Sys2Proof.Machine

/-- The combinations of registers and channel the rules allow (42_sequencer.md R173, R177;
30_encoding.md R98; 10_state.md R36, R37, R39; 00_scope.md R11). -/
structure Legal (s : State) : Prop where
  /-- The parameters meet the constraints of R11. -/
  params : s.params.Legal
  /-- At IDLE nothing is outstanding, and `state` is one a finished request leaves (R173). -/
  idle : s.step = .idle → s.channel = none ∧
    (s.state = .uninitialized ∨ s.state = .ready ∨ s.state = .failed)
  /-- While a sequence runs its request is outstanding, `state` says which it is, and `cmd_buf` holds its
  command (R161, R166). -/
  busy : s.step ≠ .idle → s.channel = some s.curOp.request ∧ s.state = s.curOp.running ∧
    s.cmdBuf = s.curOp.command
  /-- Only a MEASURE reads and checks (R177). -/
  measureOnly : s.step = .dataRead ∨ s.step = .check → s.curOp = .measure
  /-- A wait that still runs has not reached its bound (R39, R241). -/
  waiting : s.step = .wait → s.waitCnt < s.curOp.waitTicks s.params
  /-- `wait_cnt` fits in `W_CNT` bits (R39). -/
  counter : s.waitCnt < 2 ^ s.params.wCnt

/-- When an event of the bus history took place. -/
def BusEvent.time : BusEvent → Nat
  | .write _ _ _ t => t
  | .read _ _ _ t => t
  | .reset _ t => t

/-- A bus transaction, as opposed to a reset. -/
def BusEvent.isTransaction : BusEvent → Bool
  | .write _ _ _ _ => true
  | .read _ _ _ _ => true
  | .reset _ _ => false

/-- The least time the peer needs after a command (60_exceptions.md R215), in nanoseconds. -/
def commandGap (bytes : List Byte) : Nat :=
  if bytes = encodeCommand Config.cmdInit then Config.tInitMin
  else if bytes = encodeCommand Config.cmdMeasure then Config.tMeasMin
  else 0

/-- The time the block itself keeps after an event (70_reset_and_hazards.md R242): that of a command whose
write succeeded. -/
def BusEvent.gapAfter : BusEvent → Nat
  | .write _ bytes true _ => commandGap bytes
  | .write _ _ false _ => 0
  | .read _ _ _ _ => 0
  | .reset _ _ => 0

/-- At least `gap` nanoseconds lie between the tick `t` and the tick `now`. -/
def Elapsed (tick gap t now : Nat) : Prop := t ≤ now ∧ gap ≤ (now - t) * tick

/-- At the tick `now` the time kept after the newest event of the history has passed. -/
def GapPassed (tick now : Nat) : List BusEvent → Prop
  | [] => True
  | e :: _ => Elapsed tick e.gapAfter e.time now

/-- No event is newer than the tick `now`. -/
def NotAfter (now : Nat) : List BusEvent → Prop
  | [] => True
  | e :: _ => e.time ≤ now

/-- Every transaction of the history came after the time kept after the event before it (R242), and the
stamps never go back. -/
def Spaced (tick : Nat) : List BusEvent → Prop
  | [] => True
  | e :: rest =>
    NotAfter e.time rest ∧ (e.isTransaction = true → GapPassed tick e.time rest) ∧ Spaced tick rest

/-- The timing invariant of R241 and R242: the history is spaced; during a wait its newest event is the
successful command write of the running sequence, `wait_cnt` ticks ago; and outside a wait the time
kept after the newest event has passed. -/
structure Timed (s : State) : Prop where
  spaced : Spaced s.params.tick s.busLog
  past : NotAfter s.clock s.busLog
  waiting : s.step = .wait → ∃ t rest, s.clock = t + s.waitCnt ∧
    s.busLog = .write s.devAddr (encodeCommand s.curOp.command) true t :: rest
  passed : s.step ≠ .wait → GapPassed s.params.tick s.clock s.busLog

/-- The newest command the peer may have taken, as the time it needs and its tick: a command write that
was answered, `Ok` or `Err` (41_wire.md R144), or one that a reset cut (70 R232), which may have been
either command. -/
def lastCommand : List BusEvent → Option (Nat × Nat)
  | [] => none
  | .write _ bytes _ t :: _ => some (commandGap bytes, t)
  | .reset .cmdWrite t :: _ => some (Config.tMeasMin, t)
  | .reset _ _ :: rest => lastCommand rest
  | .read _ _ _ _ :: rest => lastCommand rest

/-- At the tick `now` the peer has had the time it needs after the newest command it may have taken. -/
def PeerReady (tick now : Nat) (log : List BusEvent) : Prop :=
  ∀ gap t, lastCommand log = some (gap, t) → Elapsed tick gap t now

/-- Every transaction of the history found the peer ready. -/
def PeerSpaced (tick : Nat) : List BusEvent → Prop
  | [] => True
  | e :: rest =>
    NotAfter e.time rest ∧ (e.isTransaction = true → PeerReady tick e.time rest) ∧
      PeerSpaced tick rest

/-- The sequence the next step accepts, if it accepts one (42_sequencer.md R161, R166). -/
def State.starts (s : State) : Option Op :=
  if s.resetLine then none
  else if s.step = .idle then
    match s.host with
    | .issue w :: _ =>
      if w = Op.init.request ∧ s.state = .uninitialized then some .init
      else if w = Op.measure.request ∧ s.state = .ready then some .measure
      else none
    | _ => none
  else none

/-- A reset at tick `t`, which cut the step `cut`, may have come less than 12 ms after a command write of
the history before it (70_reset_and_hazards.md R243). -/
def ResetNearCommand (tick : Nat) (cut : Step) (t : Nat) (older : List BusEvent) : Prop :=
  cut = .cmdWrite ∨ ∃ gap tc, lastCommand older = some (gap, tc) ∧ (t - tc) * tick < Config.tMeasMin

/-- The host's duties at the next step. R243: an INIT after a reset near a command write is issued at
least 12 ms after that reset. R244: a MEASURE after a failed command write is issued at least
`T_MEAS_MIN` after it. -/
structure HostKeepsDuties (s : State) : Prop where
  afterReset : s.starts = some .init → ∀ cut t older, s.busLog = .reset cut t :: older →
    ResetNearCommand s.params.tick cut t older → Elapsed s.params.tick Config.tMeasMin t s.clock
  afterFailedWrite : s.starts = some .measure → ∀ a bytes t older,
    s.busLog = .write a bytes false t :: older → Elapsed s.params.tick Config.tMeasMin t s.clock

/-- The timing invariant a dutiful host keeps, over resets and failed writes too: the peer had the time
it needs before every transaction. -/
structure PeerTimed (s : State) : Prop where
  spaced : PeerSpaced s.params.tick s.busLog
  past : NotAfter s.clock s.busLog
  waiting : s.step = .wait → ∃ t rest, s.clock = t + s.waitCnt ∧
    s.busLog = .write s.devAddr (encodeCommand s.curOp.command) true t :: rest
  onBus : s.step = .cmdWrite ∨ s.step = .dataRead ∨ s.step = .check →
    PeerReady s.params.tick s.clock s.busLog
  idleReady : s.step = .idle → s.state = .ready →
    PeerReady s.params.tick s.clock s.busLog ∨
      ∃ t rest, s.busLog = .write s.devAddr (encodeCommand Config.cmdMeasure) false t :: rest
  idleFresh : s.step = .idle → s.state = .uninitialized →
    s.busLog = [] ∨ ∃ cut t rest, s.busLog = .reset cut t :: rest

/-- The two transaction shapes (20_memory.md R67), to the one address (R63). -/
def BusEvent.legalShape : BusEvent → Bool
  | .write a bytes _ _ => a == 0x58 && (bytes == [0x20, 0x03] || bytes == [0x20, 0x08])
  | .read a n _ _ => a == 0x58 && n == 6
  | .reset _ _ => true

/-- Every transaction issued has a legal shape. -/
def ShapesLegal (s : State) : Prop := ∀ e ∈ s.busLog, e.legalShape = true

/-- The `DATA` an error response may carry (60_exceptions.md R202; 30_encoding.md R97): a phase, a group
index, a state code that a finished request leaves (42_sequencer.md R173), or a 16-bit word that does
not decode. -/
def Response.legal (r : Response) : Prop :=
  match r.status with
  | .ok => True
  | .eTransport => r.data = 0 ∨ r.data = 1
  | .eIntegrity => r.data = 0 ∨ r.data = 1
  | .eState => r.data = 0 ∨ r.data = 2 ∨ r.data = 4
  | .eIllegal => ∃ w : Word, r.data = zext32 w ∧ ∀ i, decodeRequest w ≠ .ok i

/-- Every response given is a legal one. -/
def ResponsesLegal (s : State) : Prop := ∀ r ∈ s.responses, r.legal

/-- Requests the host has yet to issue. -/
def issuesLeft : List HostMove → Nat
  | [] => 0
  | .issue _ :: rest => issuesLeft rest + 1
  | .pause :: rest => issuesLeft rest

/-- Requests not yet issued, outstanding, and answered, together. -/
def State.requestCount (s : State) : Nat :=
  issuesLeft s.host + s.channel.toList.length + s.responses.length

/-- What a host request does to `crc_acc` (40_crc.md R125 to R127). -/
def crcAfterWord (acc : Byte) (w : Word) : Byte :=
  match decodeRequest w with
  | .ok .crcClr => Config.crcInit
  | .ok (.crcByte b) => crcStep acc b
  | _ => acc

/-- What a sequence of host moves does to `crc_acc`. -/
def crcAfterMoves : Byte → List HostMove → Byte
  | acc, [] => acc
  | acc, .issue w :: rest => crcAfterMoves (crcAfterWord acc w) rest
  | acc, .pause :: rest => crcAfterMoves acc rest

/-- The bytes fed by a sequence of host moves, in order (R127). -/
def fedBytes : List HostMove → List Byte
  | [] => []
  | .issue w :: rest =>
    match decodeRequest w with
    | .ok (.crcByte b) => b :: fedBytes rest
    | _ => fedBytes rest
  | .pause :: rest => fedBytes rest

/-- The reset line stays released as far as it is known. -/
def State.Undisturbed (s : State) : Prop := ∀ r ∈ s.resets, r = false

/-- Run instructions one after another through `exec`, stopping at the first stop. -/
def execAll : List Instr → State → Host.Outcome State Fault Refusal
  | [], s => .next s
  | i :: is, s =>
    match exec i s with
    | .next t => execAll is t
    | .fault f => .fault f
    | .refused r => .refused r

/-- The host issues `w` at the next step, and the block can take it: IDLE, nothing outstanding, no
reset. -/
structure Offered (w : Word) (s : State) : Prop where
  step : s.step = .idle
  channel : s.channel = none
  line : s.resetLine = false
  host : s.host.head? = some (.issue w)

/-- `s` once the host's move has been taken and the reset line sampled, nothing else done. -/
def State.taken (s : State) : State := { s with host := s.host.tail, resets := s.resets.tail }

/-- The state after the bus port answered a command write of `bytes`: the outcome is taken and the
transaction is in the history. -/
def State.afterWrite (s : State) (bytes : List Byte) (ok : Bool) : State :=
  { s with bus := s.bus.tail, busIdx := s.busIdx + 1,
           busLog := .write 0x58 bytes ok s.clock :: s.busLog }

/-- The state after the bus port answered a frame read. -/
def State.afterRead (s : State) (answer : Option (List Byte)) : State :=
  { s with bus := s.bus.tail, busIdx := s.busIdx + 1,
           busLog := .read 0x58 6 answer s.clock :: s.busLog }

/-- The validity of group `i` of a byte sequence, by the offsets of R66. -/
def groupAtOk (f : List Byte) (i : Nat) : Bool :=
  groupOk (f.getD (3 * i) 0) (f.getD (3 * i + 1) 0) (f.getD (3 * i + 2) 0)

/-- The number of one bits of a 24-bit group pattern. -/
def groupWeight (e : BitVec 24) : Nat := ((List.range 24).filter fun k => e.getLsbD k).length

/-- The validity of a group given as 24 bits, its first byte highest. -/
def group24Ok (g : BitVec 24) : Bool :=
  groupOk (g.extractLsb' 16 8) (g.extractLsb' 8 8) (g.extractLsb' 0 8)

end Sys2Proof.Machine
end

