-- ==== Sys2Proof/Certificates/Slice0/Obligations.lean ====
section
/-! DEFINITION. The statements about the machine, each from the rules its docstring names. -/

open Sys2Proof Sys2Proof.Machine

/-! ### Encoding -/

/-- Decoding undoes encoding (30_encoding.md R92, R94, R99): on its own port, the word of every instruction,
with its operand at every value, decodes to that instruction. -/
def Obligations.DecodeUndoesEncode : Prop :=
  ∀ (p : Port) (i : Instr), WellFormed p i = true → decode p (encode i) = .ok i

/-- A word that decodes is the word of that instruction and no other (R92, R95, R99): no word of either
port has two spellings, and every other word is refused. -/
def Obligations.DecodedWordIsEncoding : Prop :=
  ∀ (p : Port) (w : Word) (i : Instr), decode p w = .ok i → encode i = w ∧ WellFormed p i = true

/-- The request words are exactly those that match a row of R92 under its mask, and the two wire command
words are not among them (95_test_vectors.md V-ENC-19). -/
def Obligations.RequestsAreTableRows : Prop :=
  (∀ w : Word, (∃ i, decodeRequest w = .ok i) ↔
    ∃ i, WellFormed .host i = true ∧ w &&& rowMask i = rowMatch i) ∧
  (∀ i, decodeRequest 0x2003 ≠ .ok i) ∧ (∀ i, decodeRequest 0x2008 ≠ .ok i)

/-- Written-out words of every family decode to their instructions (R92, R99). -/
def Obligations.WrittenWordsDecode : Prop :=
  decodeRequest 0b0001000000000000 = .ok .init ∧
  decodeRequest 0b0010000000000000 = .ok .measure ∧
  decodeRequest 0b0011000000000000 = .ok .crcClr ∧
  decodeRequest 0b0100000010111110 = .ok (.crcByte 0xBE) ∧
  decodeRequest 0b0101000000000000 = .ok .getstate ∧
  decodeCommand 0b0010000000000011 = .ok .cmdInit ∧
  decodeCommand 0b0010000000001000 = .ok .cmdMeasure

/-- The 36-bit response (R96): STATUS in bits 35:32 with the code of its row, DATA in bits 31:0, and a
code from 0x5 on carries no response. -/
def Obligations.ResponseFormat : Prop :=
  (∀ r : Response, r.rsp36.extractLsb' 32 4 = r.status.code ∧ r.rsp36.extractLsb' 0 32 = r.data ∧
    Response.ofRsp36 r.rsp36 = some r) ∧
  (∀ v : BitVec 36, 5 ≤ v.extractLsb' 32 4 → Response.ofRsp36 v = none) ∧
  Status.ok.code = 0x0 ∧ Status.eTransport.code = 0x1 ∧ Status.eIntegrity.code = 0x2 ∧
  Status.eState.code = 0x3 ∧ Status.eIllegal.code = 0x4

/-- Command words and data words are big-endian (41_wire.md R141, R142): the encoder gives exactly the high
byte and the low byte, and the decoder reads them back as an unsigned number. -/
def Obligations.WordsAreBigEndian : Prop :=
  (∀ w : Word, ∃ hi lo : Byte, encodeCommand w = [hi, lo] ∧ hi.toNat = w.toNat / 256 ∧
    lo.toNat = w.toNat % 256) ∧
  (∀ hi lo : Byte, ∃ w : Word, be16 [hi, lo] = some w ∧ w.toNat = 256 * hi.toNat + lo.toNat) ∧
  (∀ w : Word, be16 (encodeCommand w) = some w)

/-! ### The step runs what it fetches -/

/-- A step runs the decoded instruction. At IDLE, a request word that decodes runs as `exec` of its
instruction once the host's move is taken; at CMD_WRITE, the command in `cmd_buf` runs as `exec` of its
instruction; around `exec` the step only samples the reset line. Where an instruction stands before it runs is the
model's convention (log 5, log 9). -/
def Obligations.StepRunsDecodedInstr : Prop :=
  (∀ (s : State) (w : Word) (i : Instr), s.resetLine = false → s.step = .idle →
    s.host.head? = some (.issue w) → decodeRequest w = .ok i → step s = exec i s.taken) ∧
  (∀ (s : State) (i : Instr), s.resetLine = false → s.step = .cmdWrite →
    decodeCommand s.cmdBuf = .ok i → step s = exec i s.sampleReset)

/-! ### Reset -/

/-- Reset leaves every register R231 gives a value at that value, and the host channel empty. -/
def Obligations.ResetRegisterValues : Prop :=
  State.reset.state = .uninitialized ∧ State.reset.state.code = 0 ∧
  State.reset.step = .idle ∧ State.reset.step.code = 0 ∧
  State.reset.crcAcc = 0xFF ∧ State.reset.devAddr = 0x58 ∧ State.reset.waitCnt = 0 ∧
  State.reset.channel = none

/-- A reset ends whatever runs (70_reset_and_hazards.md R232): every register takes its reset value, the
channel is emptied with no response given, and no transaction is issued. Nothing of the next state
but the oracle's own place depends on the outcome of a transaction in progress: it is discarded. That
`cur_op`, `cmd_buf`, `rx_buf` and `words`, which R231 leaves unspecified, have one reset value is the
model's choice (log 1), and that a transaction the reset cuts enters no history is its reading (log 6). -/
def Obligations.ResetAbortsSequence : Prop :=
  ∀ s : State, s.resetLine = true → ∃ t, step s = .next t ∧
    t.state = State.reset.state ∧ t.step = State.reset.step ∧ t.crcAcc = State.reset.crcAcc ∧
    t.devAddr = State.reset.devAddr ∧ t.curOp = State.reset.curOp ∧
    t.cmdBuf = State.reset.cmdBuf ∧ t.rxBuf = State.reset.rxBuf ∧
    t.waitCnt = State.reset.waitCnt ∧ t.words = State.reset.words ∧ t.channel = none ∧
    t.responses = s.responses ∧
    t.busLog.filter BusEvent.isTransaction = s.busLog.filter BusEvent.isTransaction

/-- What a reset does to the model's own fields (the model's choice, log 6 and log 13): it is recorded with
the step it cut, the answer of a transaction in progress is taken and lost, and the host's moves, the
clock and the parameters stay. -/
def Obligations.ResetTakesTheCutOutcome : Prop :=
  ∀ s : State, s.resetLine = true → ∃ t, step s = .next t ∧
    t.busLog = .reset s.step s.clock :: s.busLog ∧ t.host = s.host ∧ t.clock = s.clock ∧
    t.params = s.params ∧ t.resets = s.resets.tail ∧
    (s.step = .cmdWrite ∨ s.step = .dataRead → t.bus = s.bus.tail ∧ t.busIdx = s.busIdx + 1) ∧
    (s.step ≠ .cmdWrite ∧ s.step ≠ .dataRead → t.bus = s.bus ∧ t.busIdx = s.busIdx)

/-! ### The CRC-8 generator -/

/-- R123: `crc8` is in range, is 0xFF on the empty sequence, depends on accumulator and byte through their
exclusive-or and the table V-CRC-T only, is linear over it, leaves residue 0 over its own checksum, and
so a group is valid exactly when its residue is 0. -/
def Obligations.CrcProperties : Prop :=
  (∀ s, (crc8 s).toNat ≤ 255) ∧ crc8 [] = 0xFF ∧
  (∀ a b, crcStep a b = crcT (a ^^^ b)) ∧ (∀ x : Byte, crcTable[x.toNat]? = some (crcT x)) ∧
  (∀ x y, crcT (x ^^^ y) = crcT x ^^^ crcT y) ∧
  (∀ s, crc8 (s ++ [crc8 s]) = 0x00) ∧
  (∀ hi lo c, groupOk hi lo c = true ↔ crc8 [hi, lo, c] = 0x00)

/-- R128: the eight equations of the parallel form give `crcStep` on every accumulator and byte, and the
images of the eight basis bytes are as listed. -/
def Obligations.ParallelFormIsCrcStep : Prop :=
  (∀ a b, crcStepParallel a b = crcStep a b) ∧
  crcT 0x01 = 0x31 ∧ crcT 0x02 = 0x62 ∧ crcT 0x04 = 0xC4 ∧ crcT 0x08 = 0xB9 ∧
  crcT 0x10 = 0x43 ∧ crcT 0x20 = 0x86 ∧ crcT 0x40 = 0x3D ∧ crcT 0x80 = 0x7A

/-- What the check detects within one group (41_wire.md R150): every error of odd weight, every error of
weight 2, and every burst of 8 bits or fewer turns a valid group into an invalid one. -/
def Obligations.GroupErrorsDetected : Prop :=
  ∀ g e : BitVec 24, group24Ok g = true →
    (groupWeight e % 2 = 1 → group24Ok (g ^^^ e) = false) ∧
    (groupWeight e = 2 → group24Ok (g ^^^ e) = false) ∧
    (∀ (b : Byte) (k : Nat), b ≠ 0 → k ≤ 16 → e = b.setWidth 24 <<< k →
      group24Ok (g ^^^ e) = false)

/-- `CRC.CLR` (40_crc.md R125), in every `state`: `crc_acc` becomes 0xFF and is answered; nothing else
changes and no transaction is issued. A malformed CRC.CLR word is E_ILLEGAL. -/
def Obligations.CrcClrResult : Prop :=
  (∀ s : State, s.step = .idle → s.channel = none →
    exec .crcClr s =
      .next { s with crcAcc := 0xFF, responses := ⟨.ok, 0x000000FF⟩ :: s.responses }) ∧
  decodeRequest 0x3000 = .ok .crcClr ∧
  (∀ (s : State) (w : Word), opField w = 3 → (rsvField w ≠ 0 ∨ argField w ≠ 0) → Offered w s →
    step s = .next { s.taken with responses := ⟨.eIllegal, zext32 w⟩ :: s.responses })

/-- `CRC.BYTE b` (R126), in every `state`: `crc_acc` becomes `crcStep(crc_acc, b)` and is answered; nothing
else changes and no transaction is issued. A word with `RSV` not 0 is E_ILLEGAL. -/
def Obligations.CrcByteResult : Prop :=
  (∀ (s : State) (b : Byte), s.step = .idle → s.channel = none →
    exec (.crcByte b) s =
      .next { s with crcAcc := crcStep s.crcAcc b,
                     responses := ⟨.ok, zext32 (crcStep s.crcAcc b)⟩ :: s.responses }) ∧
  (∀ b : Byte, decodeRequest (0x4000 ||| b.setWidth 16) = .ok (.crcByte b)) ∧
  (∀ (s : State) (w : Word), opField w = 4 → rsvField w ≠ 0 → Offered w s →
    step s = .next { s.taken with responses := ⟨.eIllegal, zext32 w⟩ :: s.responses })

/-- R127, over whole runs: in any run in which no reset is asserted, `crc_acc` is what the host's CRC.CLR
and CRC.BYTE requests make of it, whatever sequences, waits, bus outcomes and refused requests came
between; and after a CRC.CLR with no further CRC.CLR it is `crc8` of the bytes fed since. -/
def Obligations.CrcStreamOverRuns : Prop :=
  ∀ (n : Nat) (s t : State), s.Undisturbed → Host.Core.run core n s = .next t →
    (∃ moves, s.host = moves ++ t.host ∧ t.crcAcc = crcAfterMoves s.crcAcc moves) ∧
    (∀ rest, s.host = .issue 0x3000 :: rest ++ t.host →
      (∀ w, .issue w ∈ rest → decodeRequest w ≠ .ok .crcClr) → t.crcAcc = crc8 (fedBytes rest))

/-- No sequence, wait, check or other request reads `crc_acc` (10_state.md R34): from a state that differs
in `crc_acc` only, a step that is no reset and accepts no CRC request gives a state that differs in
`crc_acc` only. -/
def Obligations.CrcAccReadByCrcOnly : Prop :=
  ∀ (s t : State) (a : Byte), s.resetLine = false →
    (∀ w b, s.step = .idle → s.host.head? = some (.issue w) → decodeRequest w ≠ .ok (.crcByte b)) →
    (∀ w, s.step = .idle → s.host.head? = some (.issue w) → decodeRequest w ≠ .ok .crcClr) →
    step s = .next t → t.crcAcc = s.crcAcc ∧ step { s with crcAcc := a } = .next { t with crcAcc := a }

/-- The pseudo-instructions (30_encoding.md R103, R104): after the expansion of CRC.CALC over one or more
bytes `crc_acc` is their `crc8`; after that of CRC.WORD it is the checksum that makes a group carrying
the word valid. Both run to a next state from every state. -/
def Obligations.PseudoInstructionsComputeCrc : Prop :=
  (∀ (bs : List Byte) (s : State), bs ≠ [] →
    ∃ t, execAll (calcInstrs bs) s = .next t ∧ t.crcAcc = crc8 bs) ∧
  (∀ (w : Word) (s : State), ∃ t, execAll (wordInstrs w) s = .next t ∧
    ∀ c, groupOk (hiByte w) (loByte w) c = true ↔ c = t.crcAcc)

/-- Every word the assembler emits for a mnemonic or a pseudo-instruction is a legal request word
(R102 to R104); `.word` alone can emit an illegal one. -/
def Obligations.AssembledWordsDecode : Prop :=
  ∀ item : AsmItem, (∀ v, item ≠ .word v) → ∀ w ∈ item.words, ∃ i, decodeRequest w = .ok i

/-! ### Requests of the sequencer -/

/-- `GETSTATE` (42_sequencer.md R175), in every `state`: answers `state`; nothing else changes. A malformed
word is E_ILLEGAL. Where the machine is legal the value answered is 0, 2 or 4. -/
def Obligations.GetstateResult : Prop :=
  (∀ s : State, s.step = .idle → s.channel = none →
    exec .getstate s = .next { s with responses := ⟨.ok, zext32 s.state.code⟩ :: s.responses }) ∧
  decodeRequest 0x5000 = .ok .getstate ∧
  (∀ (s : State) (w : Word), opField w = 5 → (rsvField w ≠ 0 ∨ argField w ≠ 0) → Offered w s →
    step s = .next { s.taken with responses := ⟨.eIllegal, zext32 w⟩ :: s.responses }) ∧
  (∀ s : State, Legal s → s.step = .idle →
    zext32 s.state.code = 0 ∨ zext32 s.state.code = 2 ∨ zext32 s.state.code = 4)

/-- INIT and MEASURE are accepted in their states (the acceptance lines of R161 and R166): the sequence, its
command, its state and its step are set, the request is outstanding, and nothing else changes; no
transaction is issued yet. -/
def Obligations.SequenceAccepted : Prop :=
  (∀ s : State, s.step = .idle → s.state = .uninitialized →
    exec .init s = .next { s with curOp := .init, cmdBuf := 0x2003, state := .initializing,
                                  step := .cmdWrite, channel := some 0x1000 }) ∧
  (∀ s : State, s.step = .idle → s.state = .ready →
    exec .measure s = .next { s with curOp := .measure, cmdBuf := 0x2008, state := .measuring,
                                     step := .cmdWrite, channel := some 0x2000 })

/-- R164: INIT in READY or FAILED is refused with E_STATE and the unchanged `state`, with no transaction
and no register written; while a sequence runs no request is accepted at all. -/
def Obligations.InitRefused : Prop :=
  (∀ s : State, s.step = .idle → s.channel = none → s.state = .ready ∨ s.state = .failed →
    exec .init s =
      .next { s with responses := ⟨.eState, zext32 s.state.code⟩ :: s.responses }) ∧
  (∀ s t : State, Legal s → s.state = .initializing ∨ s.state = .measuring →
    s.resetLine = false → step s = .next t → t.host = s.host)

/-- R170: MEASURE in UNINITIALIZED or FAILED is refused with E_STATE and the unchanged `state`, with no
transaction and no register written. -/
def Obligations.MeasureRefused : Prop :=
  ∀ s : State, s.step = .idle → s.channel = none → s.state = .uninitialized ∨ s.state = .failed →
    exec .measure s =
      .next { s with responses := ⟨.eState, zext32 s.state.code⟩ :: s.responses }

/-- R205: a request word that does not decode changes nothing but the answer E_ILLEGAL with the word, in
every state, before any check of `state`; it issues no transaction. -/
def Obligations.IllegalWordRefused : Prop :=
  ∀ (s : State) (w : Word), Offered w s → (∀ i, WellFormed .host i = true → encode i ≠ w) →
    step s = .next { s.taken with responses := ⟨.eIllegal, zext32 w⟩ :: s.responses }

/-! ### The wire commands -/

/-- The command write (41_wire.md R143): one transaction of the two bytes of the command to 0x58. On `Ok`
the running sequence's wait starts; on `Err` the sequence ends with E_TRANSPORT in the write phase,
FAILED for an INIT and READY for a MEASURE, and it is not retried. Nothing else changes. That `cur_op`
decides which sequence ends is read from the spec (log 10). -/
def Obligations.CommandWriteResult : Prop :=
  (∀ (s : State) (d : List Byte), s.outcome = .ok d →
    exec .cmdInit s = .next { s.afterWrite [0x20, 0x03] true with step := .wait, waitCnt := 0 } ∧
    exec .cmdMeasure s =
      .next { s.afterWrite [0x20, 0x08] true with step := .wait, waitCnt := 0 }) ∧
  (∀ s : State, s.outcome = .err →
    exec .cmdInit s = .next { s.afterWrite [0x20, 0x03] false with
      step := .idle, channel := none, state := (if s.curOp = .init then .failed else .ready),
      responses := ⟨.eTransport, 0⟩ :: s.responses } ∧
    exec .cmdMeasure s = .next { s.afterWrite [0x20, 0x08] false with
      step := .idle, channel := none, state := (if s.curOp = .init then .failed else .ready),
      responses := ⟨.eTransport, 0⟩ :: s.responses })

/-- R163: when the command write of an INIT returns `Err` the block goes to FAILED and IDLE and answers
`E_TRANSPORT, 0`, with no wait and no further transaction. -/
def Obligations.InitFailure : Prop :=
  ∀ s : State, Legal s → s.resetLine = false → s.step = .cmdWrite → s.curOp = .init →
    s.outcome = .err →
    step s = .next { s.sampleReset.afterWrite [0x20, 0x03] false with
      state := .failed, step := .idle, channel := none,
      responses := ⟨.eTransport, 0⟩ :: s.responses }

/-- A transaction whose outcome never comes leaves the sequence waiting with it (60_exceptions.md R207): the
step only samples the reset line, and the wire commands change nothing. The form of such an outcome is
the model's choice (log 3). -/
def Obligations.UnansweredTransactionStands : Prop :=
  (∀ s : State, s.outcome = .never → exec .cmdInit s = .next s ∧ exec .cmdMeasure s = .next s) ∧
  (∀ s : State, Legal s → s.resetLine = false → s.step = .cmdWrite ∨ s.step = .dataRead →
    s.outcome = .never → step s = .next s.sampleReset)

/-! ### Waits -/

/-- R162: after its command write an INIT stays in INITIALIZING at WAIT, taking no request, until at least
10 ms have passed since that write; only then does it become READY and answer OK. -/
def Obligations.InitWaitKept : Prop :=
  (∀ (s : State) (d : List Byte), Legal s → s.resetLine = false → s.step = .cmdWrite →
    s.curOp = .init → s.outcome = .ok d →
    ∃ t, step s = .next t ∧ t.step = .wait ∧ t.state = .initializing ∧ t.responses = s.responses) ∧
  (∀ s : State, Legal s → Timed s → s.resetLine = false → s.step = .wait → s.curOp = .init →
    ∃ t, step s = .next t ∧ t.host = s.host ∧
      ((t.step = .wait ∧ t.state = .initializing ∧ t.responses = s.responses) ∨
       (t.step = .idle ∧ t.state = .ready ∧ t.responses = ⟨.ok, 0⟩ :: s.responses ∧
        ∃ tw rest, t.busLog = .write 0x58 [0x20, 0x03] true tw :: rest ∧
          Elapsed t.params.tick 10000000 tw t.clock)))

/-- R167: after its command write a MEASURE stays in MEASURING at WAIT until at least 12 ms have passed since
that write; only then does it go on to the frame read. -/
def Obligations.MeasureWaitKept : Prop :=
  (∀ (s : State) (d : List Byte), Legal s → s.resetLine = false → s.step = .cmdWrite →
    s.curOp = .measure → s.outcome = .ok d →
    ∃ t, step s = .next t ∧ t.step = .wait ∧ t.state = .measuring ∧ t.responses = s.responses) ∧
  (∀ s : State, Legal s → Timed s → s.resetLine = false → s.step = .wait → s.curOp = .measure →
    ∃ t, step s = .next t ∧ t.state = .measuring ∧ t.responses = s.responses ∧
      (t.step = .wait ∨
       (t.step = .dataRead ∧
        ∃ tw rest, t.busLog = .write 0x58 [0x20, 0x08] true tw :: rest ∧
          Elapsed t.params.tick 12000000 tw t.clock)))

/-- A wait ends: from WAIT, if no reset comes, the step that leaves it is the one at which `wait_cnt`
reaches its bound, and until then only the counter, the clock and the sampled line change. That time
advances with the steps of a waiting block is the model's choice (log 7). -/
def Obligations.WaitEndsAtItsBound : Prop :=
  ∀ (s : State) (n : Nat), s.Undisturbed → s.step = .wait →
    s.waitCnt + n < s.curOp.waitTicks s.params →
    Host.Core.run core n s = .next { s with waitCnt := s.waitCnt + n, clock := s.clock + n,
                                            resets := s.resets.drop n } ∧
    (s.waitCnt + n + 1 = s.curOp.waitTicks s.params →
      ∃ t, Host.Core.run core (n + 1) s = .next t ∧ t.step ≠ .wait ∧
        t.waitCnt = s.curOp.waitTicks s.params)

/-! ### The frame -/

/-- `READ_DATA(2)` (41_wire.md R145): one read of 6 bytes. Six bytes, of any values, go to `rx_buf` and the
block goes to CHECK; `Err` or another length ends the MEASURE with E_TRANSPORT in the read phase. -/
def Obligations.FrameReadResult : Prop :=
  ∀ s : State, s.resetLine = false → s.step = .dataRead → s.curOp = .measure →
    (∀ f : Vector Byte 6, s.outcome = .ok f.toList →
      step s = .next { s.sampleReset.afterRead (some f.toList) with rxBuf := f, step := .check }) ∧
    (s.outcome = .err →
      step s = .next { s.sampleReset.afterRead none with
        step := .idle, state := .ready, channel := none,
        responses := ⟨.eTransport, 1⟩ :: s.responses }) ∧
    (∀ d, s.outcome = .ok d → d.length ≠ 6 →
      step s = .next { s.sampleReset.afterRead (some d) with
        step := .idle, state := .ready, channel := none,
        responses := ⟨.eTransport, 1⟩ :: s.responses })

/-- R168: when both groups pass, the response is OK with `co2eq` in DATA[31:16] and `tvoc` in DATA[15:0],
big-endian words of the frame as they stand, and `state` becomes READY. -/
def Obligations.MeasureSuccess : Prop :=
  ∀ s : State, s.resetLine = false → s.step = .check → s.curOp = .measure →
    groupOk s.rxBuf[0] s.rxBuf[1] s.rxBuf[2] = true →
    groupOk s.rxBuf[3] s.rxBuf[4] s.rxBuf[5] = true →
    ∃ (co2eq tvoc : Word) (data : BitVec 32),
      be16 [s.rxBuf[0], s.rxBuf[1]] = some co2eq ∧ be16 [s.rxBuf[3], s.rxBuf[4]] = some tvoc ∧
      data.extractLsb' 16 16 = co2eq ∧ data.extractLsb' 0 16 = tvoc ∧
      step s = .next { s.sampleReset with
        words := #v[co2eq, tvoc], state := .ready, step := .idle, channel := none,
        responses := ⟨.ok, data⟩ :: s.responses }

/-- R169: a MEASURE that fails returns to READY in all three cases: the command write failed (E_TRANSPORT,
0, with no wait and no read), the frame read failed or had a length other than 6 (E_TRANSPORT, 1), or a
group failed its checksum (E_INTEGRITY with the first failing group, no word returned). `crc_acc` is
unchanged in each. -/
def Obligations.MeasureFailures : Prop :=
  (∀ s : State, Legal s → s.resetLine = false → s.step = .cmdWrite → s.curOp = .measure →
    s.outcome = .err →
    step s = .next { s.sampleReset.afterWrite [0x20, 0x08] false with
      state := .ready, step := .idle, channel := none,
      responses := ⟨.eTransport, 0⟩ :: s.responses }) ∧
  (∀ s : State, s.resetLine = false → s.step = .dataRead → s.curOp = .measure →
    (s.outcome = .err ∨ ∃ d, s.outcome = .ok d ∧ d.length ≠ 6) →
    ∃ answer, step s = .next { s.sampleReset.afterRead answer with
      state := .ready, step := .idle, channel := none,
      responses := ⟨.eTransport, 1⟩ :: s.responses }) ∧
  (∀ s : State, s.resetLine = false → s.step = .check → s.curOp = .measure →
    (groupOk s.rxBuf[0] s.rxBuf[1] s.rxBuf[2] = false →
      step s = .next { s.sampleReset with state := .ready, step := .idle, channel := none,
                                          responses := ⟨.eIntegrity, 0⟩ :: s.responses }) ∧
    (groupOk s.rxBuf[0] s.rxBuf[1] s.rxBuf[2] = true →
      groupOk s.rxBuf[3] s.rxBuf[4] s.rxBuf[5] = false →
      step s = .next { s.sampleReset with state := .ready, step := .idle, channel := none,
                                          responses := ⟨.eIntegrity, 1⟩ :: s.responses }))

/-- R149, for every `n >= 1` and every frame of `3 * n` bytes: the result is `Err(i)` exactly when `i` is the
least index whose group fails, and, exactly when no group fails, the list of all `n` words in order;
`n = 0` is refused; and the check and decode of a MEASURE compute `parseFrame(2, rx_buf)`. -/
def Obligations.ParseFrameResult : Prop :=
  (∀ (n : Nat) (f : List Byte), 1 ≤ n → f.length = 3 * n →
    (∀ i, parseFrame n f = .bad i ↔
      i < n ∧ groupAtOk f i = false ∧ ∀ j < i, groupAtOk f j = true) ∧
    (∀ ws, parseFrame n f = .ok ws ↔
      (∀ j < n, groupAtOk f j = true) ∧
      ws = (List.range n).map fun j => wordOf (f.getD (3 * j) 0) (f.getD (3 * j + 1) 0))) ∧
  (∀ f, parseFrame 0 f = .refused) ∧
  (∀ f : Vector Byte 6,
    parseFrame 2 f.toList = match firstBadGroup f with
      | some i => .bad i.toNat
      | none => .ok (frameWords f).toList)

/-! ### Invariants of every step -/

/-- A legal state holds right after reset. -/
def Obligations.LegalAtReset : Prop := Legal State.reset

/-- Every step keeps a state legal (42_sequencer.md R173, R177; 10_state.md R39): INITIALIZING and MEASURING
only while a sequence runs, its request outstanding and its command in `cmd_buf`; IDLE only with nothing
outstanding; the counter within its width. -/
def Obligations.LegalKept : Prop :=
  ∀ s t : State, Legal s → step s = .next t → Legal t

/-- No run of the rules stops (10_state.md R44; 60_exceptions.md R200): from every legal state the step answers
a next state. -/
def Obligations.LegalStateNeverStops : Prop :=
  ∀ s : State, Legal s → ∃ t, step s = .next t

/-- The timing invariant holds right after reset. -/
def Obligations.TimedAtReset : Prop := Timed State.reset

/-- The invariants about what was sent hold right after reset: no transaction and no response yet (that the
histories begin empty is the model's choice, log 13). -/
def Obligations.HistoriesLegalAtReset : Prop :=
  PeerTimed State.reset ∧ ShapesLegal State.reset ∧ ResponsesLegal State.reset

/-- Command spacing is enforced by the block (70_reset_and_hazards.md R242): every step keeps the history
spaced, so no transaction follows an INIT's successful command write within 10 ms, nor a MEASURE's
within 12 ms, unless a reset comes between. -/
def Obligations.CommandSpacingKept : Prop :=
  ∀ s t : State, Legal s → Timed s → step s = .next t → Timed t

/-- With the host's duties R243 and R244 kept, the peer has had the time it needs before every transaction,
across resets in the middle of a sequence and failed writes too: every step keeps that. -/
def Obligations.DutifulHostSpacesCommands : Prop :=
  ∀ s t : State, Legal s → PeerTimed s → HostKeepsDuties s → step s = .next t → PeerTimed t

/-- Only the two transaction shapes, to 0x58 only, are ever issued (20_memory.md R63, R67): every step, from
any state, keeps the history to them. -/
def Obligations.OnlyTwoTransactionShapes : Prop :=
  ∀ s t : State, ShapesLegal s → step s = .next t → ShapesLegal t

/-- Each transaction is one step, and is issued only at CMD_WRITE or DATA_READ (20_memory.md R69, R70): a step
adds at most one transaction to the history, and one that adds a transaction takes exactly one outcome
and leaves that value of `step`, so it is not issued again. -/
def Obligations.OneTransactionPerStep : Prop :=
  ∀ s t : State, s.resetLine = false → step s = .next t →
    (t.busLog = s.busLog ∧ t.busIdx = s.busIdx) ∨
    (∃ e, t.busLog = e :: s.busLog ∧ e.isTransaction = true ∧ t.busIdx = s.busIdx + 1 ∧
      (s.step = .cmdWrite ∨ s.step = .dataRead) ∧ t.step ≠ s.step)

/-- Every error response ever given carries one of the DATA values of its class (60_exceptions.md R202;
30_encoding.md R97); an E_STATE never reports a running sequence (42_sequencer.md R173). -/
def Obligations.ErrorDataLegal : Prop :=
  ∀ s t : State, Legal s → ResponsesLegal s → step s = .next t → ResponsesLegal t

/-! ### Whole-machine rules -/

/-- No request is accepted, queued or dropped while a sequence runs (30_encoding.md R98), and no response
but its own is given: the host's moves stay, and a response comes only with the return to IDLE. -/
def Obligations.BusyChannelBlocksHost : Prop :=
  ∀ s t : State, s.step ≠ .idle → s.resetLine = false → step s = .next t →
    t.host = s.host ∧ (t.step ≠ .idle → t.responses = s.responses ∧ t.channel = s.channel)

/-- Each request produces exactly one response (R96): over any run in which no reset is asserted, the
requests not yet issued, outstanding and answered add up to the same number. -/
def Obligations.EachRequestAnsweredOnce : Prop :=
  ∀ (n : Nat) (s t : State), Legal s → s.Undisturbed → Host.Core.run core n s = .next t →
    t.requestCount = s.requestCount

/-- Every change of `state` in one step without a reset is one of the rules' (42_sequencer.md R160, R176): in
particular there is no change from READY to FAILED. -/
def Obligations.StateTransitions : Prop :=
  ∀ s t : State, Legal s → s.resetLine = false → step s = .next t →
    t.state = s.state ∨
    (s.state = .uninitialized ∧ t.state = .initializing) ∨
    (s.state = .initializing ∧ (t.state = .ready ∨ t.state = .failed)) ∨
    (s.state = .ready ∧ t.state = .measuring) ∨
    (s.state = .measuring ∧ t.state = .ready)

/-- Every change of `step` in one step without a reset is a row of R177, for the sequence `cur_op` names. -/
def Obligations.StepTransitions : Prop :=
  ∀ s t : State, Legal s → s.resetLine = false → step s = .next t →
    t.step = s.step ∨
    (s.step = .idle ∧ t.step = .cmdWrite) ∨
    (s.step = .cmdWrite ∧ (t.step = .wait ∨ t.step = .idle)) ∨
    (s.step = .wait ∧ s.curOp = .init ∧ t.step = .idle) ∨
    (s.step = .wait ∧ s.curOp = .measure ∧ t.step = .dataRead) ∨
    (s.step = .dataRead ∧ s.curOp = .measure ∧ (t.step = .check ∨ t.step = .idle)) ∨
    (s.step = .check ∧ s.curOp = .measure ∧ t.step = .idle)

/-- FAILED is terminal (42_sequencer.md R171): no step without a reset leaves it; INIT and MEASURE are refused
there; CRC.CLR, CRC.BYTE and GETSTATE still work; and a reset leaves it for UNINITIALIZED. -/
def Obligations.FailedIsTerminal : Prop :=
  (∀ s t : State, Legal s → s.state = .failed → s.resetLine = false → step s = .next t →
    t.state = .failed) ∧
  (∀ s : State, Legal s → s.state = .failed →
    exec .init s = .next { s with responses := ⟨.eState, 4⟩ :: s.responses } ∧
    exec .measure s = .next { s with responses := ⟨.eState, 4⟩ :: s.responses } ∧
    exec .getstate s = .next { s with responses := ⟨.ok, 4⟩ :: s.responses } ∧
    exec .crcClr s =
      .next { s with crcAcc := 0xFF, responses := ⟨.ok, 0xFF⟩ :: s.responses } ∧
    ∀ b, exec (.crcByte b) s =
      .next { s with crcAcc := crcStep s.crcAcc b,
                     responses := ⟨.ok, zext32 (crcStep s.crcAcc b)⟩ :: s.responses }) ∧
  (∀ s : State, s.state = .failed → s.resetLine = true →
    ∃ t, step s = .next t ∧ t.state = .uninitialized)

/-- The error path (60_exceptions.md R201): whenever a step answers an error, `step` is IDLE, `state` is FAILED
after an INIT's transport error, READY after a MEASURE's error and unchanged after E_STATE and
E_ILLEGAL, the information is the one 30_encoding.md R97 lists for the error, and no other register
changes. -/
def Obligations.ErrorPath : Prop :=
  ∀ (s t : State) (r : Response), Legal s → s.resetLine = false → step s = .next t →
    t.responses = r :: s.responses → r.status ≠ .ok →
    t.step = .idle ∧ t.channel = none ∧
    t.state = (if r.status = .eState ∨ r.status = .eIllegal then s.state
      else if s.curOp = .init then .failed else .ready) ∧
    t.crcAcc = s.crcAcc ∧ t.curOp = s.curOp ∧ t.cmdBuf = s.cmdBuf ∧ t.rxBuf = s.rxBuf ∧
    t.waitCnt = s.waitCnt ∧ t.words = s.words ∧
    (r.status = .eTransport → r.data = if s.step = .cmdWrite then 0 else 1) ∧
    (r.status = .eIntegrity → ∃ i, firstBadGroup s.rxBuf = some i ∧ r.data = zext32 i) ∧
    (r.status = .eState → r.data = zext32 s.state.code) ∧
    (r.status = .eIllegal → ∃ w, s.host.head? = some (.issue w) ∧ r.data = zext32 w)

/-! ### Whole sequences -/

/-- INIT from its request to its response (42_sequencer.md R161): accepted, one command write, and, if the
write succeeds, the wait, READY and OK; if it fails, FAILED and E_TRANSPORT after that one write.
Everything the sequence leaves is stated. The count of steps and the clock are the model's (log 7), and
so is that `wait_cnt` keeps its bound once the wait is over (log 2). -/
def Obligations.InitSequence : Prop :=
  ∀ s : State, Legal s → s.Undisturbed → Offered 0x1000 s → s.state = .uninitialized →
    (∀ d, s.outcome = .ok d →
      Host.Core.run core (2 + Op.init.waitTicks s.params) s =
        .next { s.afterWrite [0x20, 0x03] true with
          host := s.host.tail, resets := s.resets.drop (2 + Op.init.waitTicks s.params),
          state := .ready, step := .idle, curOp := .init, cmdBuf := 0x2003, channel := none,
          waitCnt := Op.init.waitTicks s.params, clock := s.clock + Op.init.waitTicks s.params,
          responses := ⟨.ok, 0⟩ :: s.responses }) ∧
    (s.outcome = .err →
      Host.Core.run core 2 s =
        .next { s.afterWrite [0x20, 0x03] false with
          host := s.host.tail, resets := s.resets.drop 2,
          state := .failed, step := .idle, curOp := .init, cmdBuf := 0x2003, channel := none,
          responses := ⟨.eTransport, 0⟩ :: s.responses })

/-- MEASURE from its request to its response where the write is answered `Ok` and the read gives six bytes
(42_sequencer.md R166): one command write, the wait, one frame read, and the check: OK with the two
words when both groups pass, else E_INTEGRITY with the first group that fails. The count of steps and
the clock are the model's (log 7), and so is that `rx_buf` keeps the frame, and `words` their values,
once the sequence is over (log 2). The other endings are those of MeasureFailures. -/
def Obligations.MeasureSequence : Prop :=
  ∀ (s : State) (d : List Byte) (f : Vector Byte 6) (rest : List BusOutcome), Legal s →
    s.Undisturbed → Offered 0x2000 s → s.state = .ready → s.bus = .ok d :: .ok f.toList :: rest →
    ∃ t, Host.Core.run core (4 + Op.measure.waitTicks s.params) s = .next t ∧
      t.state = .ready ∧ t.step = .idle ∧ t.channel = none ∧ t.crcAcc = s.crcAcc ∧
      t.host = s.host.tail ∧ t.bus = rest ∧ t.rxBuf = f ∧
      t.busLog = .read 0x58 6 (some f.toList) (s.clock + Op.measure.waitTicks s.params) ::
        .write 0x58 [0x20, 0x08] true s.clock :: s.busLog ∧
      (match parseFrame 2 f.toList with
        | .ok [co2eq, tvoc] =>
          t.responses = ⟨.ok, co2eq ++ tvoc⟩ :: s.responses ∧ t.words = #v[co2eq, tvoc]
        | .bad i =>
          t.responses = ⟨.eIntegrity, BitVec.ofNat 32 i⟩ :: s.responses ∧ t.words = s.words
        | _ => False)
end

