-- ==== Sys2Proof/Laws/Decode.lean ====
section
/-! SUPPORT. What the decoders can answer, said once. -/

namespace Sys2Proof

/-- The command decoder accepts two words (R99). -/
theorem decodeCommand_eq_ok {w : Word} {i : Instr} :
    decodeCommand w = .ok i ↔
      (w = Config.cmdInit ∧ i = .cmdInit) ∨ (w = Config.cmdMeasure ∧ i = .cmdMeasure) := by
  unfold decodeCommand
  by_cases h1 : w = Config.cmdInit
  · subst h1
    rw [if_pos rfl]
    constructor
    · rintro ⟨⟩; exact .inl ⟨rfl, rfl⟩
    · rintro (⟨_, rfl⟩ | ⟨h, _⟩)
      · rfl
      · exact absurd h (by decide)
  · rw [if_neg h1]
    by_cases h2 : w = Config.cmdMeasure
    · subst h2
      rw [if_pos rfl]
      constructor
      · rintro ⟨⟩; exact .inr ⟨rfl, rfl⟩
      · rintro (⟨h, _⟩ | ⟨_, rfl⟩)
        · exact absurd h h1
        · rfl
    · rw [if_neg h2]
      simp [h1, h2]

theorem decodeNoArg_eq_ok {arg : Byte} {i j : Instr} (h : decodeNoArg arg j = .ok i) :
    arg = 0 ∧ i = j := by
  unfold decodeNoArg at h
  split at h
  · cases h; exact ⟨‹_›, rfl⟩
  · cases h

/-- A word that decodes as a request, by its fields (R92, R94). -/
theorem decodeRequest_eq_ok {w : Word} {i : Instr} (h : decodeRequest w = .ok i) :
    rsvField w = 0 ∧
      ((opField w = 1 ∧ argField w = 0 ∧ i = .init) ∨
       (opField w = 2 ∧ argField w = 0 ∧ i = .measure) ∨
       (opField w = 3 ∧ argField w = 0 ∧ i = .crcClr) ∨
       (opField w = 4 ∧ i = .crcByte (argField w)) ∨
       (opField w = 5 ∧ argField w = 0 ∧ i = .getstate)) := by
  unfold decodeRequest at h
  split at h
  · cases h
  next hop =>
  split at h
  · cases h
  next hr =>
  refine ⟨not_not.mp hr, ?_⟩
  unfold decodeOp at h
  split at h
  · exact .inl ⟨‹_›, decodeNoArg_eq_ok h⟩
  split at h
  · exact .inr (.inl ⟨‹_›, decodeNoArg_eq_ok h⟩)
  split at h
  · exact .inr (.inr (.inl ⟨‹_›, decodeNoArg_eq_ok h⟩))
  split at h
  · cases h; exact .inr (.inr (.inr (.inl ⟨‹_›, rfl⟩)))
  · refine .inr (.inr (.inr (.inr ⟨?_, decodeNoArg_eq_ok h⟩)))
    generalize opField w = o at *
    revert o
    decide

/-- A word is its three fields put together. -/
theorem word_eq_fields (w : Word) : opField w ++ rsvField w ++ argField w = w := by
  apply BitVec.eq_of_getLsbD_eq
  intro k hk
  simp only [opField, rsvField, argField, BitVec.getLsbD_append, BitVec.getLsbD_extractLsb']
  by_cases h8 : k < 8
  · simp [h8]
  · by_cases h12 : k < 12
    · have : k - 8 < 4 := by omega
      have e : 8 + (k - 8) = k := by omega
      simp [h8, this, e]
    · have h4 : ¬ k - 8 < 4 := by omega
      have h4' : k - 8 - 4 < 4 := by omega
      have e : 12 + (k - 8 - 4) = k := by omega
      simp [h8, h4, h4', e]

theorem decodeRequest_init {w : Word} (h : decodeRequest w = .ok .init) : w = 0x1000 := by
  obtain ⟨hr, h⟩ := decodeRequest_eq_ok h
  have e := word_eq_fields w
  rcases h with ⟨ho, ha, _⟩ | ⟨_, _, h⟩ | ⟨_, _, h⟩ | ⟨_, h⟩ | ⟨_, _, h⟩
  · rw [ho, hr, ha] at e; exact e.symm
  all_goals cases h

theorem decodeRequest_measure {w : Word} (h : decodeRequest w = .ok .measure) : w = 0x2000 := by
  obtain ⟨hr, h⟩ := decodeRequest_eq_ok h
  have e := word_eq_fields w
  rcases h with ⟨_, _, h⟩ | ⟨ho, ha, _⟩ | ⟨_, _, h⟩ | ⟨_, h⟩ | ⟨_, _, h⟩
  · cases h
  · rw [ho, hr, ha] at e; exact e.symm
  all_goals cases h

/-- Every error of the request decoder is an answer of its own: the word decodes to nothing. -/
theorem decodeRequest_error {w : Word} {e : DecodeError} (h : decodeRequest w = .error e)
    (i : Instr) : decodeRequest w ≠ .ok i := by rw [h]; nofun

end Sys2Proof
end

