-- ==== Sys2Proof/Laws/State.lean ====
section
/-! SUPPORT. One lemma for each field of State under each named update, true by rfl, so that no later
proof unfolds a record update. -/

namespace Sys2Proof.Machine

@[simp] theorem State.devAddr_eq (s : State) : s.devAddr = Config.devAddr := rfl

@[simp] theorem State.raiseState_eq (s : State) :
    s.raiseState = s.raise .eState (zext32 s.state.code) s.state := rfl

@[simp] theorem State.raiseIllegal_eq (s : State) (w : Word) :
    s.raiseIllegal w = s.raise .eIllegal (zext32 w) s.state := rfl

@[simp] theorem State.respond_state (s : State) (st : Status) (d : BitVec 32) :
    (s.respond st d).state = s.state := rfl
@[simp] theorem State.respond_crcAcc (s : State) (st : Status) (d : BitVec 32) :
    (s.respond st d).crcAcc = s.crcAcc := rfl
@[simp] theorem State.respond_step (s : State) (st : Status) (d : BitVec 32) :
    (s.respond st d).step = .idle := rfl
@[simp] theorem State.respond_curOp (s : State) (st : Status) (d : BitVec 32) :
    (s.respond st d).curOp = s.curOp := rfl
@[simp] theorem State.respond_cmdBuf (s : State) (st : Status) (d : BitVec 32) :
    (s.respond st d).cmdBuf = s.cmdBuf := rfl
@[simp] theorem State.respond_rxBuf (s : State) (st : Status) (d : BitVec 32) :
    (s.respond st d).rxBuf = s.rxBuf := rfl
@[simp] theorem State.respond_waitCnt (s : State) (st : Status) (d : BitVec 32) :
    (s.respond st d).waitCnt = s.waitCnt := rfl
@[simp] theorem State.respond_words (s : State) (st : Status) (d : BitVec 32) :
    (s.respond st d).words = s.words := rfl
@[simp] theorem State.respond_channel (s : State) (st : Status) (d : BitVec 32) :
    (s.respond st d).channel = none := rfl
@[simp] theorem State.respond_responses (s : State) (st : Status) (d : BitVec 32) :
    (s.respond st d).responses = ⟨st, d⟩ :: s.responses := rfl
@[simp] theorem State.respond_busLog (s : State) (st : Status) (d : BitVec 32) :
    (s.respond st d).busLog = s.busLog := rfl
@[simp] theorem State.respond_host (s : State) (st : Status) (d : BitVec 32) :
    (s.respond st d).host = s.host := rfl
@[simp] theorem State.respond_bus (s : State) (st : Status) (d : BitVec 32) :
    (s.respond st d).bus = s.bus := rfl
@[simp] theorem State.respond_busIdx (s : State) (st : Status) (d : BitVec 32) :
    (s.respond st d).busIdx = s.busIdx := rfl
@[simp] theorem State.respond_resets (s : State) (st : Status) (d : BitVec 32) :
    (s.respond st d).resets = s.resets := rfl
@[simp] theorem State.respond_clock (s : State) (st : Status) (d : BitVec 32) :
    (s.respond st d).clock = s.clock := rfl
@[simp] theorem State.respond_params (s : State) (st : Status) (d : BitVec 32) :
    (s.respond st d).params = s.params := rfl

@[simp] theorem State.raise_state (s : State) (e : Status) (d : BitVec 32) (q : SeqState) :
    (s.raise e d q).state = q := rfl
@[simp] theorem State.raise_crcAcc (s : State) (e : Status) (d : BitVec 32) (q : SeqState) :
    (s.raise e d q).crcAcc = s.crcAcc := rfl
@[simp] theorem State.raise_step (s : State) (e : Status) (d : BitVec 32) (q : SeqState) :
    (s.raise e d q).step = .idle := rfl
@[simp] theorem State.raise_curOp (s : State) (e : Status) (d : BitVec 32) (q : SeqState) :
    (s.raise e d q).curOp = s.curOp := rfl
@[simp] theorem State.raise_cmdBuf (s : State) (e : Status) (d : BitVec 32) (q : SeqState) :
    (s.raise e d q).cmdBuf = s.cmdBuf := rfl
@[simp] theorem State.raise_rxBuf (s : State) (e : Status) (d : BitVec 32) (q : SeqState) :
    (s.raise e d q).rxBuf = s.rxBuf := rfl
@[simp] theorem State.raise_waitCnt (s : State) (e : Status) (d : BitVec 32) (q : SeqState) :
    (s.raise e d q).waitCnt = s.waitCnt := rfl
@[simp] theorem State.raise_words (s : State) (e : Status) (d : BitVec 32) (q : SeqState) :
    (s.raise e d q).words = s.words := rfl
@[simp] theorem State.raise_channel (s : State) (e : Status) (d : BitVec 32) (q : SeqState) :
    (s.raise e d q).channel = none := rfl
@[simp] theorem State.raise_responses (s : State) (e : Status) (d : BitVec 32) (q : SeqState) :
    (s.raise e d q).responses = ⟨e, d⟩ :: s.responses := rfl
@[simp] theorem State.raise_busLog (s : State) (e : Status) (d : BitVec 32) (q : SeqState) :
    (s.raise e d q).busLog = s.busLog := rfl
@[simp] theorem State.raise_host (s : State) (e : Status) (d : BitVec 32) (q : SeqState) :
    (s.raise e d q).host = s.host := rfl
@[simp] theorem State.raise_bus (s : State) (e : Status) (d : BitVec 32) (q : SeqState) :
    (s.raise e d q).bus = s.bus := rfl
@[simp] theorem State.raise_busIdx (s : State) (e : Status) (d : BitVec 32) (q : SeqState) :
    (s.raise e d q).busIdx = s.busIdx := rfl
@[simp] theorem State.raise_resets (s : State) (e : Status) (d : BitVec 32) (q : SeqState) :
    (s.raise e d q).resets = s.resets := rfl
@[simp] theorem State.raise_clock (s : State) (e : Status) (d : BitVec 32) (q : SeqState) :
    (s.raise e d q).clock = s.clock := rfl
@[simp] theorem State.raise_params (s : State) (e : Status) (d : BitVec 32) (q : SeqState) :
    (s.raise e d q).params = s.params := rfl

@[simp] theorem State.accept_state (s : State) (op : Op) : (s.accept op).state = op.running := rfl
@[simp] theorem State.accept_crcAcc (s : State) (op : Op) : (s.accept op).crcAcc = s.crcAcc := rfl
@[simp] theorem State.accept_step (s : State) (op : Op) : (s.accept op).step = .cmdWrite := rfl
@[simp] theorem State.accept_curOp (s : State) (op : Op) : (s.accept op).curOp = op := rfl
@[simp] theorem State.accept_cmdBuf (s : State) (op : Op) : (s.accept op).cmdBuf = op.command := rfl
@[simp] theorem State.accept_rxBuf (s : State) (op : Op) : (s.accept op).rxBuf = s.rxBuf := rfl
@[simp] theorem State.accept_waitCnt (s : State) (op : Op) :
    (s.accept op).waitCnt = s.waitCnt := rfl
@[simp] theorem State.accept_words (s : State) (op : Op) : (s.accept op).words = s.words := rfl
@[simp] theorem State.accept_channel (s : State) (op : Op) :
    (s.accept op).channel = some op.request := rfl
@[simp] theorem State.accept_responses (s : State) (op : Op) :
    (s.accept op).responses = s.responses := rfl
@[simp] theorem State.accept_busLog (s : State) (op : Op) : (s.accept op).busLog = s.busLog := rfl
@[simp] theorem State.accept_host (s : State) (op : Op) : (s.accept op).host = s.host := rfl
@[simp] theorem State.accept_bus (s : State) (op : Op) : (s.accept op).bus = s.bus := rfl
@[simp] theorem State.accept_busIdx (s : State) (op : Op) : (s.accept op).busIdx = s.busIdx := rfl
@[simp] theorem State.accept_resets (s : State) (op : Op) : (s.accept op).resets = s.resets := rfl
@[simp] theorem State.accept_clock (s : State) (op : Op) : (s.accept op).clock = s.clock := rfl
@[simp] theorem State.accept_params (s : State) (op : Op) : (s.accept op).params = s.params := rfl

@[simp] theorem State.takeOutcome_state (s : State) : s.takeOutcome.state = s.state := rfl
@[simp] theorem State.takeOutcome_crcAcc (s : State) : s.takeOutcome.crcAcc = s.crcAcc := rfl
@[simp] theorem State.takeOutcome_step (s : State) : s.takeOutcome.step = s.step := rfl
@[simp] theorem State.takeOutcome_curOp (s : State) : s.takeOutcome.curOp = s.curOp := rfl
@[simp] theorem State.takeOutcome_cmdBuf (s : State) : s.takeOutcome.cmdBuf = s.cmdBuf := rfl
@[simp] theorem State.takeOutcome_rxBuf (s : State) : s.takeOutcome.rxBuf = s.rxBuf := rfl
@[simp] theorem State.takeOutcome_waitCnt (s : State) : s.takeOutcome.waitCnt = s.waitCnt := rfl
@[simp] theorem State.takeOutcome_words (s : State) : s.takeOutcome.words = s.words := rfl
@[simp] theorem State.takeOutcome_channel (s : State) : s.takeOutcome.channel = s.channel := rfl
@[simp] theorem State.takeOutcome_responses (s : State) :
    s.takeOutcome.responses = s.responses := rfl
@[simp] theorem State.takeOutcome_busLog (s : State) : s.takeOutcome.busLog = s.busLog := rfl
@[simp] theorem State.takeOutcome_host (s : State) : s.takeOutcome.host = s.host := rfl
@[simp] theorem State.takeOutcome_bus (s : State) : s.takeOutcome.bus = s.bus.tail := rfl
@[simp] theorem State.takeOutcome_busIdx (s : State) : s.takeOutcome.busIdx = s.busIdx + 1 := rfl
@[simp] theorem State.takeOutcome_resets (s : State) : s.takeOutcome.resets = s.resets := rfl
@[simp] theorem State.takeOutcome_clock (s : State) : s.takeOutcome.clock = s.clock := rfl
@[simp] theorem State.takeOutcome_params (s : State) : s.takeOutcome.params = s.params := rfl

@[simp] theorem State.logWrite_state (s : State) (b : List Byte) (k : Bool) :
    (s.logWrite b k).state = s.state := rfl
@[simp] theorem State.logWrite_crcAcc (s : State) (b : List Byte) (k : Bool) :
    (s.logWrite b k).crcAcc = s.crcAcc := rfl
@[simp] theorem State.logWrite_step (s : State) (b : List Byte) (k : Bool) :
    (s.logWrite b k).step = s.step := rfl
@[simp] theorem State.logWrite_curOp (s : State) (b : List Byte) (k : Bool) :
    (s.logWrite b k).curOp = s.curOp := rfl
@[simp] theorem State.logWrite_cmdBuf (s : State) (b : List Byte) (k : Bool) :
    (s.logWrite b k).cmdBuf = s.cmdBuf := rfl
@[simp] theorem State.logWrite_rxBuf (s : State) (b : List Byte) (k : Bool) :
    (s.logWrite b k).rxBuf = s.rxBuf := rfl
@[simp] theorem State.logWrite_waitCnt (s : State) (b : List Byte) (k : Bool) :
    (s.logWrite b k).waitCnt = s.waitCnt := rfl
@[simp] theorem State.logWrite_words (s : State) (b : List Byte) (k : Bool) :
    (s.logWrite b k).words = s.words := rfl
@[simp] theorem State.logWrite_channel (s : State) (b : List Byte) (k : Bool) :
    (s.logWrite b k).channel = s.channel := rfl
@[simp] theorem State.logWrite_responses (s : State) (b : List Byte) (k : Bool) :
    (s.logWrite b k).responses = s.responses := rfl
@[simp] theorem State.logWrite_busLog (s : State) (b : List Byte) (k : Bool) :
    (s.logWrite b k).busLog = .write Config.devAddr b k s.clock :: s.busLog := rfl
@[simp] theorem State.logWrite_host (s : State) (b : List Byte) (k : Bool) :
    (s.logWrite b k).host = s.host := rfl
@[simp] theorem State.logWrite_bus (s : State) (b : List Byte) (k : Bool) :
    (s.logWrite b k).bus = s.bus := rfl
@[simp] theorem State.logWrite_busIdx (s : State) (b : List Byte) (k : Bool) :
    (s.logWrite b k).busIdx = s.busIdx := rfl
@[simp] theorem State.logWrite_resets (s : State) (b : List Byte) (k : Bool) :
    (s.logWrite b k).resets = s.resets := rfl
@[simp] theorem State.logWrite_clock (s : State) (b : List Byte) (k : Bool) :
    (s.logWrite b k).clock = s.clock := rfl
@[simp] theorem State.logWrite_params (s : State) (b : List Byte) (k : Bool) :
    (s.logWrite b k).params = s.params := rfl

@[simp] theorem State.logRead_state (s : State) (n : Nat) (a : Option (List Byte)) :
    (s.logRead n a).state = s.state := rfl
@[simp] theorem State.logRead_crcAcc (s : State) (n : Nat) (a : Option (List Byte)) :
    (s.logRead n a).crcAcc = s.crcAcc := rfl
@[simp] theorem State.logRead_step (s : State) (n : Nat) (a : Option (List Byte)) :
    (s.logRead n a).step = s.step := rfl
@[simp] theorem State.logRead_curOp (s : State) (n : Nat) (a : Option (List Byte)) :
    (s.logRead n a).curOp = s.curOp := rfl
@[simp] theorem State.logRead_cmdBuf (s : State) (n : Nat) (a : Option (List Byte)) :
    (s.logRead n a).cmdBuf = s.cmdBuf := rfl
@[simp] theorem State.logRead_rxBuf (s : State) (n : Nat) (a : Option (List Byte)) :
    (s.logRead n a).rxBuf = s.rxBuf := rfl
@[simp] theorem State.logRead_waitCnt (s : State) (n : Nat) (a : Option (List Byte)) :
    (s.logRead n a).waitCnt = s.waitCnt := rfl
@[simp] theorem State.logRead_words (s : State) (n : Nat) (a : Option (List Byte)) :
    (s.logRead n a).words = s.words := rfl
@[simp] theorem State.logRead_channel (s : State) (n : Nat) (a : Option (List Byte)) :
    (s.logRead n a).channel = s.channel := rfl
@[simp] theorem State.logRead_responses (s : State) (n : Nat) (a : Option (List Byte)) :
    (s.logRead n a).responses = s.responses := rfl
@[simp] theorem State.logRead_busLog (s : State) (n : Nat) (a : Option (List Byte)) :
    (s.logRead n a).busLog = .read Config.devAddr n a s.clock :: s.busLog := rfl
@[simp] theorem State.logRead_host (s : State) (n : Nat) (a : Option (List Byte)) :
    (s.logRead n a).host = s.host := rfl
@[simp] theorem State.logRead_bus (s : State) (n : Nat) (a : Option (List Byte)) :
    (s.logRead n a).bus = s.bus := rfl
@[simp] theorem State.logRead_busIdx (s : State) (n : Nat) (a : Option (List Byte)) :
    (s.logRead n a).busIdx = s.busIdx := rfl
@[simp] theorem State.logRead_resets (s : State) (n : Nat) (a : Option (List Byte)) :
    (s.logRead n a).resets = s.resets := rfl
@[simp] theorem State.logRead_clock (s : State) (n : Nat) (a : Option (List Byte)) :
    (s.logRead n a).clock = s.clock := rfl
@[simp] theorem State.logRead_params (s : State) (n : Nat) (a : Option (List Byte)) :
    (s.logRead n a).params = s.params := rfl

@[simp] theorem State.startWait_state (s : State) : s.startWait.state = s.state := rfl
@[simp] theorem State.startWait_crcAcc (s : State) : s.startWait.crcAcc = s.crcAcc := rfl
@[simp] theorem State.startWait_step (s : State) : s.startWait.step = .wait := rfl
@[simp] theorem State.startWait_curOp (s : State) : s.startWait.curOp = s.curOp := rfl
@[simp] theorem State.startWait_cmdBuf (s : State) : s.startWait.cmdBuf = s.cmdBuf := rfl
@[simp] theorem State.startWait_rxBuf (s : State) : s.startWait.rxBuf = s.rxBuf := rfl
@[simp] theorem State.startWait_waitCnt (s : State) : s.startWait.waitCnt = 0 := rfl
@[simp] theorem State.startWait_words (s : State) : s.startWait.words = s.words := rfl
@[simp] theorem State.startWait_channel (s : State) : s.startWait.channel = s.channel := rfl
@[simp] theorem State.startWait_responses (s : State) : s.startWait.responses = s.responses := rfl
@[simp] theorem State.startWait_busLog (s : State) : s.startWait.busLog = s.busLog := rfl
@[simp] theorem State.startWait_host (s : State) : s.startWait.host = s.host := rfl
@[simp] theorem State.startWait_bus (s : State) : s.startWait.bus = s.bus := rfl
@[simp] theorem State.startWait_busIdx (s : State) : s.startWait.busIdx = s.busIdx := rfl
@[simp] theorem State.startWait_resets (s : State) : s.startWait.resets = s.resets := rfl
@[simp] theorem State.startWait_clock (s : State) : s.startWait.clock = s.clock := rfl
@[simp] theorem State.startWait_params (s : State) : s.startWait.params = s.params := rfl

@[simp] theorem State.hostPause_state (s : State) : s.hostPause.state = s.state := rfl
@[simp] theorem State.hostPause_crcAcc (s : State) : s.hostPause.crcAcc = s.crcAcc := rfl
@[simp] theorem State.hostPause_step (s : State) : s.hostPause.step = s.step := rfl
@[simp] theorem State.hostPause_curOp (s : State) : s.hostPause.curOp = s.curOp := rfl
@[simp] theorem State.hostPause_cmdBuf (s : State) : s.hostPause.cmdBuf = s.cmdBuf := rfl
@[simp] theorem State.hostPause_rxBuf (s : State) : s.hostPause.rxBuf = s.rxBuf := rfl
@[simp] theorem State.hostPause_waitCnt (s : State) : s.hostPause.waitCnt = s.waitCnt := rfl
@[simp] theorem State.hostPause_words (s : State) : s.hostPause.words = s.words := rfl
@[simp] theorem State.hostPause_channel (s : State) : s.hostPause.channel = s.channel := rfl
@[simp] theorem State.hostPause_responses (s : State) : s.hostPause.responses = s.responses := rfl
@[simp] theorem State.hostPause_busLog (s : State) : s.hostPause.busLog = s.busLog := rfl
@[simp] theorem State.hostPause_host (s : State) : s.hostPause.host = s.host := rfl
@[simp] theorem State.hostPause_bus (s : State) : s.hostPause.bus = s.bus := rfl
@[simp] theorem State.hostPause_busIdx (s : State) : s.hostPause.busIdx = s.busIdx := rfl
@[simp] theorem State.hostPause_resets (s : State) : s.hostPause.resets = s.resets := rfl
@[simp] theorem State.hostPause_clock (s : State) : s.hostPause.clock = s.clock + 1 := rfl
@[simp] theorem State.hostPause_params (s : State) : s.hostPause.params = s.params := rfl

@[simp] theorem State.sampleReset_state (s : State) : s.sampleReset.state = s.state := rfl
@[simp] theorem State.sampleReset_crcAcc (s : State) : s.sampleReset.crcAcc = s.crcAcc := rfl
@[simp] theorem State.sampleReset_step (s : State) : s.sampleReset.step = s.step := rfl
@[simp] theorem State.sampleReset_curOp (s : State) : s.sampleReset.curOp = s.curOp := rfl
@[simp] theorem State.sampleReset_cmdBuf (s : State) : s.sampleReset.cmdBuf = s.cmdBuf := rfl
@[simp] theorem State.sampleReset_rxBuf (s : State) : s.sampleReset.rxBuf = s.rxBuf := rfl
@[simp] theorem State.sampleReset_waitCnt (s : State) : s.sampleReset.waitCnt = s.waitCnt := rfl
@[simp] theorem State.sampleReset_words (s : State) : s.sampleReset.words = s.words := rfl
@[simp] theorem State.sampleReset_channel (s : State) : s.sampleReset.channel = s.channel := rfl
@[simp] theorem State.sampleReset_responses (s : State) :
    s.sampleReset.responses = s.responses := rfl
@[simp] theorem State.sampleReset_busLog (s : State) : s.sampleReset.busLog = s.busLog := rfl
@[simp] theorem State.sampleReset_host (s : State) : s.sampleReset.host = s.host := rfl
@[simp] theorem State.sampleReset_bus (s : State) : s.sampleReset.bus = s.bus := rfl
@[simp] theorem State.sampleReset_busIdx (s : State) : s.sampleReset.busIdx = s.busIdx := rfl
@[simp] theorem State.sampleReset_resets (s : State) : s.sampleReset.resets = s.resets.tail := rfl
@[simp] theorem State.sampleReset_clock (s : State) : s.sampleReset.clock = s.clock := rfl
@[simp] theorem State.sampleReset_params (s : State) : s.sampleReset.params = s.params := rfl

@[simp] theorem State.tick_state (s : State) : s.tick.state = s.state := rfl
@[simp] theorem State.tick_crcAcc (s : State) : s.tick.crcAcc = s.crcAcc := rfl
@[simp] theorem State.tick_step (s : State) : s.tick.step = s.step := rfl
@[simp] theorem State.tick_curOp (s : State) : s.tick.curOp = s.curOp := rfl
@[simp] theorem State.tick_cmdBuf (s : State) : s.tick.cmdBuf = s.cmdBuf := rfl
@[simp] theorem State.tick_rxBuf (s : State) : s.tick.rxBuf = s.rxBuf := rfl
@[simp] theorem State.tick_waitCnt (s : State) : s.tick.waitCnt = s.waitCnt + 1 := rfl
@[simp] theorem State.tick_words (s : State) : s.tick.words = s.words := rfl
@[simp] theorem State.tick_channel (s : State) : s.tick.channel = s.channel := rfl
@[simp] theorem State.tick_responses (s : State) : s.tick.responses = s.responses := rfl
@[simp] theorem State.tick_busLog (s : State) : s.tick.busLog = s.busLog := rfl
@[simp] theorem State.tick_host (s : State) : s.tick.host = s.host := rfl
@[simp] theorem State.tick_bus (s : State) : s.tick.bus = s.bus := rfl
@[simp] theorem State.tick_busIdx (s : State) : s.tick.busIdx = s.busIdx := rfl
@[simp] theorem State.tick_resets (s : State) : s.tick.resets = s.resets := rfl
@[simp] theorem State.tick_clock (s : State) : s.tick.clock = s.clock + 1 := rfl
@[simp] theorem State.tick_params (s : State) : s.tick.params = s.params := rfl

@[simp] theorem State.taken_state (s : State) : s.taken.state = s.state := rfl
@[simp] theorem State.taken_crcAcc (s : State) : s.taken.crcAcc = s.crcAcc := rfl
@[simp] theorem State.taken_step (s : State) : s.taken.step = s.step := rfl
@[simp] theorem State.taken_curOp (s : State) : s.taken.curOp = s.curOp := rfl
@[simp] theorem State.taken_cmdBuf (s : State) : s.taken.cmdBuf = s.cmdBuf := rfl
@[simp] theorem State.taken_rxBuf (s : State) : s.taken.rxBuf = s.rxBuf := rfl
@[simp] theorem State.taken_waitCnt (s : State) : s.taken.waitCnt = s.waitCnt := rfl
@[simp] theorem State.taken_words (s : State) : s.taken.words = s.words := rfl
@[simp] theorem State.taken_channel (s : State) : s.taken.channel = s.channel := rfl
@[simp] theorem State.taken_responses (s : State) : s.taken.responses = s.responses := rfl
@[simp] theorem State.taken_busLog (s : State) : s.taken.busLog = s.busLog := rfl
@[simp] theorem State.taken_host (s : State) : s.taken.host = s.host.tail := rfl
@[simp] theorem State.taken_bus (s : State) : s.taken.bus = s.bus := rfl
@[simp] theorem State.taken_busIdx (s : State) : s.taken.busIdx = s.busIdx := rfl
@[simp] theorem State.taken_resets (s : State) : s.taken.resets = s.resets.tail := rfl
@[simp] theorem State.taken_clock (s : State) : s.taken.clock = s.clock := rfl
@[simp] theorem State.taken_params (s : State) : s.taken.params = s.params := rfl

@[simp] theorem State.discardCut_state (s : State) : s.discardCut.state = s.state := by
  unfold State.discardCut; split <;> rfl
@[simp] theorem State.discardCut_crcAcc (s : State) : s.discardCut.crcAcc = s.crcAcc := by
  unfold State.discardCut; split <;> rfl
@[simp] theorem State.discardCut_step (s : State) : s.discardCut.step = s.step := by
  unfold State.discardCut; split <;> rfl
@[simp] theorem State.discardCut_curOp (s : State) : s.discardCut.curOp = s.curOp := by
  unfold State.discardCut; split <;> rfl
@[simp] theorem State.discardCut_cmdBuf (s : State) : s.discardCut.cmdBuf = s.cmdBuf := by
  unfold State.discardCut; split <;> rfl
@[simp] theorem State.discardCut_rxBuf (s : State) : s.discardCut.rxBuf = s.rxBuf := by
  unfold State.discardCut; split <;> rfl
@[simp] theorem State.discardCut_waitCnt (s : State) : s.discardCut.waitCnt = s.waitCnt := by
  unfold State.discardCut; split <;> rfl
@[simp] theorem State.discardCut_words (s : State) : s.discardCut.words = s.words := by
  unfold State.discardCut; split <;> rfl
@[simp] theorem State.discardCut_channel (s : State) : s.discardCut.channel = s.channel := by
  unfold State.discardCut; split <;> rfl
@[simp] theorem State.discardCut_responses (s : State) : s.discardCut.responses = s.responses := by
  unfold State.discardCut; split <;> rfl
@[simp] theorem State.discardCut_busLog (s : State) : s.discardCut.busLog = s.busLog := by
  unfold State.discardCut; split <;> rfl
@[simp] theorem State.discardCut_host (s : State) : s.discardCut.host = s.host := by
  unfold State.discardCut; split <;> rfl
@[simp] theorem State.discardCut_resets (s : State) : s.discardCut.resets = s.resets := by
  unfold State.discardCut; split <;> rfl
@[simp] theorem State.discardCut_clock (s : State) : s.discardCut.clock = s.clock := by
  unfold State.discardCut; split <;> rfl
@[simp] theorem State.discardCut_params (s : State) : s.discardCut.params = s.params := by
  unfold State.discardCut; split <;> rfl

@[simp] theorem State.applyReset_state (s : State) :
    s.applyReset.state = .uninitialized := rfl
@[simp] theorem State.applyReset_crcAcc (s : State) :
    s.applyReset.crcAcc = Config.crcInit := rfl
@[simp] theorem State.applyReset_step (s : State) :
    s.applyReset.step = .idle := rfl
@[simp] theorem State.applyReset_curOp (s : State) :
    s.applyReset.curOp = .init := rfl
@[simp] theorem State.applyReset_cmdBuf (s : State) :
    s.applyReset.cmdBuf = 0 := rfl
@[simp] theorem State.applyReset_rxBuf (s : State) :
    s.applyReset.rxBuf = #v[0, 0, 0, 0, 0, 0] := rfl
@[simp] theorem State.applyReset_waitCnt (s : State) :
    s.applyReset.waitCnt = 0 := rfl
@[simp] theorem State.applyReset_words (s : State) :
    s.applyReset.words = #v[0, 0] := rfl
@[simp] theorem State.applyReset_channel (s : State) :
    s.applyReset.channel = none := rfl
@[simp] theorem State.applyReset_responses (s : State) : s.applyReset.responses = s.responses := rfl
@[simp] theorem State.applyReset_busLog (s : State) :
    s.applyReset.busLog = .reset s.step s.clock :: s.busLog := rfl
@[simp] theorem State.applyReset_host (s : State) : s.applyReset.host = s.host := rfl
@[simp] theorem State.applyReset_bus (s : State) : s.applyReset.bus = s.discardCut.bus := rfl
@[simp] theorem State.applyReset_busIdx (s : State) : s.applyReset.busIdx = s.discardCut.busIdx := rfl
@[simp] theorem State.applyReset_resets (s : State) : s.applyReset.resets = s.resets := rfl
@[simp] theorem State.applyReset_clock (s : State) : s.applyReset.clock = s.clock := rfl
@[simp] theorem State.applyReset_params (s : State) : s.applyReset.params = s.params := rfl

end Sys2Proof.Machine
end

