-- ==== Sys2Proof/Laws/Ops.lean ====
section
/-! SUPPORT. One lemma for each shared operation that says once everything it can do; later proofs cite
these and do not unfold the operation. -/

namespace Sys2Proof.Machine

/-! ### Parameters and waits -/

theorem ceilDiv_covers {t tick : Nat} (h : 0 < tick) : t ≤ ceilDiv t tick * tick := by
  unfold ceilDiv
  have h1 := Nat.div_add_mod (t + (tick - 1)) tick
  have h2 := Nat.mod_lt (t + (tick - 1)) h
  rw [Nat.mul_comm] at h1
  omega

theorem ceilDiv_mono {a b tick : Nat} (h : a ≤ b) : ceilDiv a tick ≤ ceilDiv b tick :=
  Nat.div_le_div_right (by omega)

/-- The free parameters meet the constraints of R11. -/
theorem params_legal : Config.params.Legal := by
  refine ⟨by simp [Config.params], by simp [Config.params], by simp [Config.params], ?_⟩
  simp only [Config.params]
  exact Nat.lt_of_lt_of_le Nat.lt_log2_self
    (Nat.pow_le_pow_right (by omega) (Nat.le_add_right _ _))

theorem Op.minWait_le {p : Params} (hp : p.Legal) (op : Op) : op.minWait ≤ op.waitTime p := by
  cases op
  · exact hp.2.1
  · exact hp.2.2.1

/-- The ticks of a wait last at least the minimum of the source (R241). -/
theorem Op.minWait_le_ticks {p : Params} (hp : p.Legal) (op : Op) :
    op.minWait ≤ op.waitTicks p * p.tick :=
  (op.minWait_le hp).trans (ceilDiv_covers hp.1)

theorem Op.waitTicks_pos {p : Params} (hp : p.Legal) (op : Op) : 0 < op.waitTicks p := by
  have h := op.minWait_le_ticks hp
  have hm : 0 < op.minWait := by cases op <;> decide
  exact Nat.pos_of_ne_zero fun h0 => by rw [h0, Nat.zero_mul] at h; omega

/-- `W_CNT` bits hold the bound of either wait (R39). -/
theorem Op.waitTicks_fits {p : Params} (hp : p.Legal) (op : Op) :
    op.waitTicks p < 2 ^ p.wCnt := by
  refine Nat.lt_of_le_of_lt (ceilDiv_mono ?_) hp.2.2.2
  cases op
  · exact Nat.le_max_left _ _
  · exact Nat.le_max_right _ _

/-! ### The oracle and the frame -/

@[simp] theorem State.outcome_nil {s : State} (h : s.bus = []) :
    s.outcome = Config.busOutcome s.busIdx := by simp [State.outcome, h]

@[simp] theorem State.outcome_cons {s : State} {o : BusOutcome} {rest : List BusOutcome}
    (h : s.bus = o :: rest) : s.outcome = o := by simp [State.outcome, h]

@[simp] theorem State.sampleReset_outcome (s : State) : s.sampleReset.outcome = s.outcome := rfl

theorem frameOf_eq_some {d : List Byte} {f : Vector Byte 6} :
    frameOf d = some f ↔ f.toList = d := by
  constructor
  · unfold frameOf
    split
    · rintro ⟨⟩; rfl
    · simp
  · rintro rfl
    obtain ⟨⟨l⟩, h⟩ := f
    match l, h with
    | [_, _, _, _, _, _], _ => rfl

theorem frameOf_eq_none {d : List Byte} : frameOf d = none ↔ d.length ≠ 6 := by
  unfold frameOf
  split
  · simp
  · next h =>
    simp only [true_iff]
    intro hl
    match d, hl with
    | [a, b, c, d, e, f], _ => exact h a b c d e f rfl

/-! ### The operations of the bus -/

/-- Everything a command write can do. -/
theorem State.sendCommand_cases (s : State) (w : Word) :
    (s.outcome = .never ∧ s.sendCommand w = s) ∨
    (s.outcome = .err ∧ s.sendCommand w =
      (s.takeOutcome.logWrite (encodeCommand w) false).raise .eTransport 0 s.curOp.afterError) ∨
    (∃ d, s.outcome = .ok d ∧ s.sendCommand w =
      (s.takeOutcome.logWrite (encodeCommand w) true).startWait) := by
  unfold State.sendCommand State.finishWrite
  cases h : s.outcome with
  | never => exact .inl ⟨rfl, rfl⟩
  | err => exact .inr (.inl ⟨rfl, rfl⟩)
  | ok d => exact .inr (.inr ⟨d, rfl, rfl⟩)

/-- Everything a frame read can do. -/
theorem State.readData_cases (s : State) :
    (s.outcome = .never ∧ s.readData = s) ∨
    (s.outcome = .err ∧ s.readData = (s.takeOutcome.logRead 6 none).raise .eTransport 1 .ready) ∨
    (∃ d, s.outcome = .ok d ∧ d.length ≠ 6 ∧
      s.readData = (s.takeOutcome.logRead 6 (some d)).raise .eTransport 1 .ready) ∨
    (∃ f : Vector Byte 6, s.outcome = .ok f.toList ∧ s.readData =
      { s.takeOutcome.logRead 6 (some f.toList) with rxBuf := f, step := .check }) := by
  unfold State.readData State.finishRead
  cases h : s.outcome with
  | never => exact .inl ⟨rfl, rfl⟩
  | err => exact .inr (.inl ⟨rfl, rfl⟩)
  | ok d =>
    refine .inr (.inr ?_)
    cases hf : frameOf d with
    | none => exact .inl ⟨d, rfl, frameOf_eq_none.mp hf, by simp [hf]; rfl⟩
    | some f =>
      obtain rfl := frameOf_eq_some.mp hf
      exact .inr ⟨f, rfl, by simp [hf]; rfl⟩

/-- Everything a check can do: the first wrong group is reported, or both words are returned. -/
theorem State.checkFrame_cases (s : State) :
    (∃ i : BitVec 2, (i = 0 ∨ i = 1) ∧ firstBadGroup s.rxBuf = some i ∧
      s.checkFrame = s.raise .eIntegrity (zext32 i) .ready) ∨
    (firstBadGroup s.rxBuf = none ∧ s.checkFrame =
      State.respond .ok ((frameWords s.rxBuf)[0] ++ (frameWords s.rxBuf)[1])
        { s with words := frameWords s.rxBuf, state := .ready }) := by
  unfold State.checkFrame
  cases h : firstBadGroup s.rxBuf with
  | none => exact .inr ⟨rfl, rfl⟩
  | some i =>
    refine .inl ⟨i, ?_, rfl, rfl⟩
    unfold firstBadGroup at h
    split at h
    · split at h <;> simp_all
    · simp_all

/-- Everything a tick at WAIT can do. -/
theorem State.waitTick_cases (s : State) :
    (s.waitCnt + 1 < s.curOp.waitTicks s.params ∧ s.waitTick = s.tick) ∨
    (s.curOp.waitTicks s.params ≤ s.waitCnt + 1 ∧ s.curOp = .init ∧
      s.waitTick = State.respond .ok 0 { s.tick with state := .ready }) ∨
    (s.curOp.waitTicks s.params ≤ s.waitCnt + 1 ∧ s.curOp = .measure ∧
      s.waitTick = { s.tick with step := .dataRead }) := by
  unfold State.waitTick
  by_cases h : s.tick.waitCnt < s.curOp.waitTicks s.params
  · exact .inl ⟨h, if_pos h⟩
  · rw [if_neg h]
    refine .inr ?_
    unfold State.endWait
    cases hop : s.curOp with
    | init => exact .inl ⟨hop ▸ Nat.le_of_not_lt h, rfl, by simp [hop]⟩
    | measure => exact .inr ⟨hop ▸ Nat.le_of_not_lt h, rfl, by simp [hop]⟩

/-! ### Reset -/

theorem State.discardCut_onBus {s : State} (h : s.step.onBus = true) :
    s.discardCut = s.takeOutcome := by simp [State.discardCut, h]

theorem State.discardCut_offBus {s : State} (h : s.step.onBus = false) : s.discardCut = s := by
  simp [State.discardCut, h]

theorem State.resetLine_of_undisturbed {s : State} (h : s.Undisturbed) : s.resetLine = false := by
  unfold State.resetLine
  cases hr : s.resets with
  | nil => rfl
  | cons r rs => exact h r (by simp [hr])

theorem State.sampleReset_undisturbed {s : State} (h : s.Undisturbed) : s.sampleReset.Undisturbed :=
  fun r hr => h r (List.mem_of_mem_tail hr)

theorem State.releaseReset_line (s : State) : s.releaseReset.resetLine = false := by
  unfold State.releaseReset
  split
  · rfl
  · exact Bool.not_eq_true _ ▸ ‹_›

end Sys2Proof.Machine
end

