-- ==== Sys2Proof/Laws/PerInstr.lean ====
section
/-! SUPPORT. Statements made of every instruction as syntax, one lemma per constructor. -/

/-- The word `encode` gives an instruction matches its own row of the opcode table under the row's
mask (30_encoding.md R92, R99). -/
def Sys2Proof.Laws.TableRow.Statement (i : Sys2Proof.Instr) : Prop :=
  Sys2Proof.encode i &&& Sys2Proof.rowMask i = Sys2Proof.rowMatch i

namespace Sys2Proof.Laws.TableRow

theorem init : Statement .init := by unfold Statement; decide

theorem measure : Statement .measure := by unfold Statement; decide

theorem crcClr : Statement .crcClr := by unfold Statement; decide

theorem crcByte (b : Byte) : Statement (.crcByte b) := by
  unfold Statement
  apply BitVec.eq_of_getLsbD_eq
  intro k hk
  by_cases h8 : k < 8
  · simp only [encode, rowMask, rowMatch, BitVec.getLsbD_and, BitVec.getLsbD_or]
    generalize b.setWidth 16 = x
    interval_cases k <;> simp
  · have hb : b.getLsbD k = false := BitVec.getLsbD_of_ge b k (by omega)
    simp only [encode, rowMask, rowMatch, BitVec.getLsbD_and, BitVec.getLsbD_or,
      BitVec.getLsbD_setWidth, hb, Bool.and_false, Bool.or_false]
    interval_cases k <;> simp_all

theorem getstate : Statement .getstate := by unfold Statement; decide

theorem cmdInit : Statement .cmdInit := by unfold Statement; decide

theorem cmdMeasure : Statement .cmdMeasure := by unfold Statement; decide

end Sys2Proof.Laws.TableRow
end

