-- ==== Sys2Proof/Laws/Step.lean ====
section
/-! SUPPORT. Everything a step can do, said once as a relation between the state before and after. -/

namespace Sys2Proof.Machine

/-- The moves of the block: one constructor for each row of the tables of 42_sequencer.md R176 and
R177, and one for each way the outside world can leave it standing. -/
inductive BlockMove (s : State) : State → Prop where
  | quiet : s.step = .idle → s.host = [] → BlockMove s s
  | pause {rest} : s.step = .idle → s.host = .pause :: rest →
      BlockMove s (State.hostPause { s with host := rest })
  | illegal {w rest} : s.step = .idle → s.host = .issue w :: rest →
      (∀ i, decodeRequest w ≠ .ok i) → BlockMove s (State.raiseIllegal w { s with host := rest })
  | initAccepted {w rest} : s.step = .idle → s.host = .issue w :: rest →
      decodeRequest w = .ok .init → s.state = .uninitialized →
      BlockMove s (State.accept .init { s with host := rest })
  | initRefused {w rest} : s.step = .idle → s.host = .issue w :: rest →
      decodeRequest w = .ok .init → s.state ≠ .uninitialized →
      BlockMove s (State.raiseState { s with host := rest })
  | measureAccepted {w rest} : s.step = .idle → s.host = .issue w :: rest →
      decodeRequest w = .ok .measure → s.state = .ready →
      BlockMove s (State.accept .measure { s with host := rest })
  | measureRefused {w rest} : s.step = .idle → s.host = .issue w :: rest →
      decodeRequest w = .ok .measure → s.state ≠ .ready →
      BlockMove s (State.raiseState { s with host := rest })
  | crcClr {w rest} : s.step = .idle → s.host = .issue w :: rest →
      decodeRequest w = .ok .crcClr →
      BlockMove s (State.respond .ok (zext32 Config.crcInit)
        { s with host := rest, crcAcc := Config.crcInit })
  | crcByte {w b rest} : s.step = .idle → s.host = .issue w :: rest →
      decodeRequest w = .ok (.crcByte b) →
      BlockMove s (State.respond .ok (zext32 (crcStep s.crcAcc b))
        { s with host := rest, crcAcc := crcStep s.crcAcc b })
  | getstate {w rest} : s.step = .idle → s.host = .issue w :: rest →
      decodeRequest w = .ok .getstate →
      BlockMove s (State.respond .ok (zext32 s.state.code) { s with host := rest })
  | writeUnanswered {op : Op} : s.step = .cmdWrite → s.cmdBuf = op.command → s.outcome = .never →
      BlockMove s s
  | writeFailed {op : Op} : s.step = .cmdWrite → s.cmdBuf = op.command → s.outcome = .err →
      BlockMove s ((s.takeOutcome.logWrite (encodeCommand op.command) false).raise .eTransport 0
        s.curOp.afterError)
  | written {op : Op} {d} : s.step = .cmdWrite → s.cmdBuf = op.command → s.outcome = .ok d →
      BlockMove s (s.takeOutcome.logWrite (encodeCommand op.command) true).startWait
  | ticked : s.step = .wait → s.waitCnt + 1 < s.curOp.waitTicks s.params → BlockMove s s.tick
  | initDone : s.step = .wait → s.curOp.waitTicks s.params ≤ s.waitCnt + 1 → s.curOp = .init →
      BlockMove s (State.respond .ok 0 { s.tick with state := .ready })
  | measureWaited : s.step = .wait → s.curOp.waitTicks s.params ≤ s.waitCnt + 1 →
      s.curOp = .measure → BlockMove s { s.tick with step := .dataRead }
  | readUnanswered : s.step = .dataRead → s.curOp = .measure → s.outcome = .never → BlockMove s s
  | readFailed : s.step = .dataRead → s.curOp = .measure → s.outcome = .err →
      BlockMove s ((s.takeOutcome.logRead 6 none).raise .eTransport 1 .ready)
  | readWrongLength {d} : s.step = .dataRead → s.curOp = .measure → s.outcome = .ok d →
      d.length ≠ 6 →
      BlockMove s ((s.takeOutcome.logRead 6 (some d)).raise .eTransport 1 .ready)
  | readDone {f : Vector Byte 6} : s.step = .dataRead → s.curOp = .measure →
      s.outcome = .ok f.toList →
      BlockMove s { s.takeOutcome.logRead 6 (some f.toList) with rxBuf := f, step := .check }
  | groupWrong {i : BitVec 2} : s.step = .check → s.curOp = .measure → i = 0 ∨ i = 1 →
      firstBadGroup s.rxBuf = some i → BlockMove s (s.raise .eIntegrity (zext32 i) .ready)
  | measured : s.step = .check → s.curOp = .measure → firstBadGroup s.rxBuf = none →
      BlockMove s (State.respond .ok ((frameWords s.rxBuf)[0] ++ (frameWords s.rxBuf)[1])
        { s with words := frameWords s.rxBuf, state := .ready })

theorem acceptRequest_move {s : State} {w : Word} {rest : List HostMove} {t : State}
    (hs : s.step = .idle) (hh : s.host = .issue w :: rest)
    (h : acceptRequest w { s with host := rest } = .next t) : BlockMove s t := by
  unfold acceptRequest at h
  split at h
  · next i hi =>
    rcases (decodeRequest_eq_ok hi).2 with ⟨_, _, rfl⟩ | ⟨_, _, rfl⟩ | ⟨_, _, rfl⟩ | ⟨_, rfl⟩ |
      ⟨_, _, rfl⟩
    · simp only [exec, execInit] at h
      cases h
      split
      · exact .initAccepted hs hh hi ‹_›
      · exact .initRefused hs hh hi ‹_›
    · simp only [exec, execMeasure] at h
      cases h
      split
      · exact .measureAccepted hs hh hi ‹_›
      · exact .measureRefused hs hh hi ‹_›
    · cases h; exact .crcClr hs hh hi
    · cases h; exact .crcByte hs hh hi
    · cases h; exact .getstate hs hh hi
  · next e he =>
    cases h
    exact .illegal hs hh (decodeRequest_error he)

theorem sendCommand_move {s : State} {op : Op} (hs : s.step = .cmdWrite)
    (hc : s.cmdBuf = op.command) : BlockMove s (s.sendCommand op.command) := by
  rcases s.sendCommand_cases op.command with ⟨ho, h⟩ | ⟨ho, h⟩ | ⟨d, ho, h⟩ <;> rw [h]
  · exact .writeUnanswered hs hc ho
  · exact .writeFailed hs hc ho
  · exact .written hs hc ho

/-- Everything the block can do when no reset is asserted. -/
theorem stepBlock_move {s t : State} (h : stepBlock s = .next t) : BlockMove s t := by
  unfold stepBlock at h
  split at h
  · next hs =>
    unfold stepIdle at h
    split at h
    · cases h; exact .quiet hs ‹_›
    · cases h; exact .pause hs ‹_›
    · exact acceptRequest_move hs ‹_› h
  · next hs =>
    unfold stepCommand at h
    split at h
    · next i hi =>
      rcases decodeCommand_eq_ok.mp hi with ⟨hc, rfl⟩ | ⟨hc, rfl⟩ <;> cases h
      · exact sendCommand_move (op := .init) hs hc
      · exact sendCommand_move (op := .measure) hs hc
    · cases h
  · next hs =>
    cases h
    rcases s.waitTick_cases with ⟨h1, h⟩ | ⟨h1, h2, h⟩ | ⟨h1, h2, h⟩ <;> rw [h]
    · exact .ticked hs h1
    · exact .initDone hs h1 h2
    · exact .measureWaited hs h1 h2
  · next hs =>
    unfold stepMeasureOnly at h
    split at h
    · cases h
    · next hop =>
      cases h
      rcases s.readData_cases with ⟨ho, h⟩ | ⟨ho, h⟩ | ⟨d, ho, hl, h⟩ | ⟨f, ho, h⟩ <;> rw [h]
      · exact .readUnanswered hs hop ho
      · exact .readFailed hs hop ho
      · exact .readWrongLength hs hop ho hl
      · exact .readDone hs hop ho
  · next hs =>
    unfold stepMeasureOnly at h
    split at h
    · cases h
    · next hop =>
      cases h
      rcases s.checkFrame_cases with ⟨i, hi, hb, h⟩ | ⟨hb, h⟩ <;> rw [h]
      · exact .groupWrong hs hop hi hb
      · exact .measured hs hop hb

/-- Everything a step can do: the reset, or a move of the block once the line is sampled. -/
theorem step_cases {s t : State} (h : step s = .next t) :
    (s.resetLine = true ∧ t = s.sampleReset.applyReset) ∨
    (s.resetLine = false ∧ BlockMove s.sampleReset t) := by
  unfold step at h
  split at h
  · cases h; exact .inl ⟨‹_›, rfl⟩
  · exact .inr ⟨‹_›, stepBlock_move h⟩

/-- With the reset line released, a step is the block's action. -/
theorem step_of_released {s : State} (h : s.resetLine = false) :
    step s = stepBlock s.sampleReset := by simp [step, h]

end Sys2Proof.Machine
end

