-- ==== Sys2Proof/Laws/Run.lean ====
section
/-! SUPPORT. Runs of several steps, taken apart. -/

namespace Sys2Proof.Machine

theorem run_zero (s : State) : Host.Core.run core 0 s = .next s := rfl

theorem run_succ {n : Nat} {s t : State} (h : step s = .next t) :
    Host.Core.run core (n + 1) s = Host.Core.run core n t := by
  have h' : core.step s = .next t := h
  simp only [Host.Core.run, h']

/-- A run that ends in a next state took its first step to a next state. -/
theorem run_succ_next {n : Nat} {s t : State} (h : Host.Core.run core (n + 1) s = .next t) :
    ∃ u, step s = .next u ∧ Host.Core.run core n u = .next t := by
  simp only [Host.Core.run] at h
  split at h
  · exact ⟨_, ‹core.step s = _›, h⟩
  · cases h
  · cases h

/-- Two runs one after the other are one run. -/
theorem run_add {n : Nat} {t : State} : ∀ {m : Nat} {s : State},
    Host.Core.run core m s = .next t → Host.Core.run core (m + n) s = Host.Core.run core n t
  | 0, s, h => by cases h; rw [Nat.zero_add]
  | m + 1, s, h => by
    obtain ⟨u, hu, h⟩ := run_succ_next h
    rw [Nat.add_right_comm, run_succ hu]
    exact run_add h

theorem step_at_wait {s : State} (hl : s.resetLine = false) (hs : s.step = .wait) :
    step s = .next s.sampleReset.waitTick := by
  rw [step_of_released hl]
  simp [stepBlock, hs]

theorem step_at_dataRead {s : State} (hl : s.resetLine = false) (hs : s.step = .dataRead)
    (hop : s.curOp = .measure) : step s = .next s.sampleReset.readData := by
  rw [step_of_released hl]
  simp [stepBlock, stepMeasureOnly, hs, hop]

theorem step_at_check {s : State} (hl : s.resetLine = false) (hs : s.step = .check)
    (hop : s.curOp = .measure) : step s = .next s.sampleReset.checkFrame := by
  rw [step_of_released hl]
  simp [stepBlock, stepMeasureOnly, hs, hop]

theorem step_at_cmdWrite {s : State} {op : Op} (hl : s.resetLine = false) (hs : s.step = .cmdWrite)
    (hc : s.cmdBuf = op.command) : step s = .next (s.sampleReset.sendCommand op.command) := by
  rw [step_of_released hl]
  simp only [stepBlock, State.sampleReset_step, hs, stepCommand, State.sampleReset_cmdBuf, hc]
  cases op <;> rfl

end Sys2Proof.Machine
end

