-- ==== Sys2Proof/Tests/Slice0.lean ====
section
/-! SUPPORT. Tests with results from outside the model (the tables of 95_test_vectors.md and the rules'
own examples), and, for every statement with hypotheses, a witness that meets them all together. -/

namespace Sys2Proof.Tests

open Sys2Proof Sys2Proof.Machine

/-! ### Small states -/

/-- `TICK` = 1 ms and the smallest legal waits (95_test_vectors.md, timing vectors). -/
def testParams : Params := ⟨1000000, 10000000, 12000000, 5⟩

/-- IDLE in `st`, the host about to issue `w`. -/
def idleAt (st : SeqState) (w : Word) : State :=
  { State.reset with state := st, host := [.issue w], params := testParams }

/-- The sequence `op` at the step `sp`, `bus` the coming answers. -/
def runningAt (op : Op) (sp : Step) (bus : List BusOutcome) : State :=
  { State.reset with state := op.running, step := sp, curOp := op, cmdBuf := op.command,
                     channel := some op.request, bus := bus, params := testParams }

/-- The sequence `op` at WAIT, `k` ticks after its command write at tick 3. -/
def waitingAt (op : Op) (k : Nat) : State :=
  { runningAt op .wait [] with
    busLog := [.write 0x58 (encodeCommand op.command) true 3], waitCnt := k, clock := 3 + k }

/-- MEASURE at CHECK with the frame `f` received. -/
def checkAt (f : Vector Byte 6) : State := { runningAt .measure .check [] with rxBuf := f }

/-- The next state, where there is one. -/
def nextOf : Host.Outcome State Fault Refusal → Option State
  | .next t => some t
  | .fault _ => none
  | .refused _ => none

/-- What the host sees of it, and where the sequencer stands. -/
def seen (o : Host.Outcome State Fault Refusal) : Option (SeqState × Step × List Response) :=
  (nextOf o).map fun t => (t.state, t.step, t.responses)

theorem testParams_legal : testParams.Legal := by decide

theorem testTicks (op : Op) : 0 < op.waitTicks testParams ∧ op.waitTicks testParams < 2 ^ 5 := by
  cases op <;> decide

theorem idleAt_legal {st : SeqState} {w : Word}
    (h : st = .uninitialized ∨ st = .ready ∨ st = .failed) : Legal (idleAt st w) where
  params := testParams_legal
  idle := fun _ => ⟨rfl, h⟩
  busy := fun hs => absurd rfl hs
  measureOnly := fun h => by rcases h with h | h <;> cases h
  waiting := fun h => by cases h
  counter := Nat.two_pow_pos 5

theorem runningAt_legal {op : Op} {sp : Step} {bus : List BusOutcome} (hs : sp ≠ .idle)
    (hm : sp = .dataRead ∨ sp = .check → op = .measure) : Legal (runningAt op sp bus) where
  params := testParams_legal
  idle := fun h => absurd h hs
  busy := fun _ => ⟨rfl, rfl, rfl⟩
  measureOnly := hm
  waiting := fun _ => (testTicks op).1
  counter := Nat.two_pow_pos 5

theorem waitingAt_legal {op : Op} {k : Nat} (h : k < op.waitTicks testParams) :
    Legal (waitingAt op k) where
  params := testParams_legal
  idle := fun h => by cases h
  busy := fun _ => ⟨rfl, rfl, rfl⟩
  measureOnly := fun h => by rcases h with h | h <;> cases h
  waiting := fun _ => h
  counter := lt_trans h (testTicks op).2

theorem waitingAt_timed (op : Op) (k : Nat) : Timed (waitingAt op k) where
  spaced := ⟨trivial, fun _ => trivial, trivial⟩
  past := Nat.le_add_right 3 k
  waiting := fun _ => ⟨3, [], rfl, rfl⟩
  passed := fun h => absurd rfl h

/-! ### Well-formed and ill-formed terms -/

/-- A wire command is no request (30_encoding.md R90). -/
theorem test_illFormed_command_on_host :
    WellFormed .host .cmdInit = false ∧ WellFormed .host .cmdMeasure = false := by decide

/-- A request is no wire command. -/
theorem test_illFormed_request_on_wire :
    WellFormed .wire .init = false ∧ WellFormed .wire .measure = false ∧
    WellFormed .wire .crcClr = false ∧ WellFormed .wire (.crcByte 0x20) = false ∧
    WellFormed .wire .getstate = false := by decide

/-- A byte operand above 255 (R102). -/
theorem test_illFormed_byte_operand : (AsmItem.crcByte 256).wellFormed = false := by decide

/-- A word operand above 65535 (R102, R104). -/
theorem test_illFormed_word_operand :
    (AsmItem.word 65536).wellFormed = false ∧ (AsmItem.crcWord 65536).wellFormed = false := by decide

/-- CRC.CALC with no byte, and with one out of range (R103). -/
theorem test_illFormed_calc :
    (AsmItem.crcCalc []).wellFormed = false ∧ (AsmItem.crcCalc [1, 256]).wellFormed = false := by
  decide

/-! ### Decoding (30_encoding.md R91 to R95, R99; vectors V-ENC) -/

theorem test_decode_init : decodeRequest 0b0001000000000000 = .ok .init := by decide

theorem test_decode_measure : decodeRequest 0b0010000000000000 = .ok .measure := by decide

theorem test_decode_crcClr : decodeRequest 0b0011000000000000 = .ok .crcClr := by decide

theorem test_decode_crcByte :
    decodeRequest 0b0100000010111110 = .ok (.crcByte 0xBE) ∧
    decodeRequest 0b0100000000000000 = .ok (.crcByte 0x00) ∧
    decodeRequest 0b0100000011111111 = .ok (.crcByte 0xFF) := by decide

theorem test_decode_getstate : decodeRequest 0b0101000000000000 = .ok .getstate := by decide

theorem test_decode_cmdInit : decodeCommand 0b0010000000000011 = .ok .cmdInit := by decide

theorem test_decode_cmdMeasure : decodeCommand 0b0010000000001000 = .ok .cmdMeasure := by decide

/-- V-ENC-1, 16, 17, 18: `OP` is checked first. -/
theorem test_reject_reservedOp :
    decodeRequest 0x0000 = .error .reservedOp ∧ decodeRequest 0x6000 = .error .reservedOp ∧
    decodeRequest 0xF000 = .error .reservedOp ∧ decodeRequest 0xFFFF = .error .reservedOp := by decide

/-- V-ENC-4, 12, 13: `RSV` is checked second. -/
theorem test_reject_reservedField :
    decodeRequest 0x1100 = .error .reservedField ∧ decodeRequest 0x4100 = .error .reservedField ∧
    decodeRequest 0x4F55 = .error .reservedField := by decide

/-- V-ENC-3, 6, 8, 15, 19. -/
theorem test_reject_argNotZero :
    decodeRequest 0x1001 = .error .argNotZero ∧ decodeRequest 0x2080 = .error .argNotZero ∧
    decodeRequest 0x30FF = .error .argNotZero ∧ decodeRequest 0x5001 = .error .argNotZero ∧
    decodeRequest 0x2003 = .error .argNotZero := by decide

/-- 0x3639 is no command of the block (91_not_in_source.md N11), nor is a request. -/
theorem test_reject_notACommand :
    decodeCommand 0x3639 = .error .notACommand ∧ decodeCommand 0x1000 = .error .notACommand := by
  decide

/-- The rows of spec/opcode_table.json, and an illegal word. -/
theorem test_decodeTableWord :
    decodeTableWord 16 0x1000 = some .init ∧ decodeTableWord 16 0x2000 = some .measure ∧
    decodeTableWord 16 0x3000 = some .crcClr ∧ decodeTableWord 16 0x4055 = some (.crcByte 0x55) ∧
    decodeTableWord 16 0x5000 = some .getstate ∧ decodeTableWord 16 0x2003 = some .cmdInit ∧
    decodeTableWord 16 0x2008 = some .cmdMeasure ∧ decodeTableWord 16 0x6000 = none := by decide

/-! ### Responses (R96; V-RSP) -/

theorem test_rsp36 :
    (⟨.ok, 0x01900000⟩ : Response).rsp36 = 0x001900000 ∧
    (⟨.eTransport, 1⟩ : Response).rsp36 = 0x100000001 ∧
    (⟨.eIntegrity, 1⟩ : Response).rsp36 = 0x200000001 ∧
    (⟨.eState, 4⟩ : Response).rsp36 = 0x300000004 ∧
    (⟨.eIllegal, 0x6000⟩ : Response).rsp36 = 0x400006000 ∧
    Response.ofRsp36 0x500000000 = none := by decide

/-! ### CRC (40_crc.md; V-STEP, V-CRC, V-CRC-T) -/

/-- One iteration of the loop, from the traces V-STEP-12 (a set high bit) and V-STEP-10 (a clear one). -/
theorem test_crcShift : crcShift 0xFF = 0xCF ∧ crcShift 0x41 = 0x82 := by decide

theorem test_crcStep :
    crcStep 0x12 0x34 = 0x20 ∧ crcStep 0x34 0x12 = 0x20 ∧ crcStep 0x9D 0x90 = 0x4C ∧
    crcStep 0x00 0x80 = 0x7A ∧ crcStep 0xFF 0xFF = 0x00 := by decide

theorem test_crcTable : (List.range 256).all
    (fun x => crcTable.getD x 0 == crcT (BitVec.ofNat 8 x)) = true := by decide +kernel

theorem test_crcParallel : crcParallel 0x41 = 0x0C ∧ crcParallel 0xE3 = 0x92 := by decide

theorem test_crc8 :
    crc8 [] = 0xFF ∧ crc8 [0x00, 0x00] = 0x81 ∧ crc8 [0xBE, 0xEF] = 0x92 ∧
    crc8 [0xFF, 0x00] = 0x00 ∧ crc8 [0x80, 0x00] = 0xA2 := by decide +kernel

/-- V-CRC-12 and V-CRC-30. -/
theorem test_crc8_long :
    crc8 [0x31, 0x32, 0x33, 0x34, 0x35, 0x36, 0x37, 0x38, 0x39] = 0xF7 ∧
    crc8 [0x01, 0x90, 0x4C, 0x00, 0x00, 0x81] = 0x4B := by decide +kernel

/-- R150: the idle-high and the all-zero group fail; 0xFF 0x00 0x00 is valid. -/
theorem test_groupOk :
    groupOk 0xFF 0xFF 0xFF = false ∧ groupOk 0x00 0x00 0x00 = false ∧
    groupOk 0xFF 0x00 0x00 = true ∧ groupOk 0x01 0x90 0x4C = true := by decide +kernel

/-! ### Wire and frames (41_wire.md; V-WIRE, V-FRM) -/

theorem test_encodeCommand :
    encodeCommand 0x2003 = [0x20, 0x03] ∧ encodeCommand 0x2008 = [0x20, 0x08] := by decide

theorem test_be16 : be16 [0x01, 0x90] = some 400 ∧ be16 [0x90, 0x01] = some 0x9001 ∧
    be16 [0x01] = none := by decide

theorem test_parseFrame :
    parseFrame 1 [0x00, 0x00, 0x81] = .ok [0x0000] ∧
    parseFrame 1 [0x00, 0x00, 0x80] = .bad 0 ∧
    parseFrame 0 [] = .refused ∧ parseFrame 2 [0x00, 0x00, 0x81] = .refused := by decide +kernel

theorem test_parseFrame_three :
    parseFrame 3 [0x01, 0x90, 0x4C, 0x00, 0x00, 0x81, 0xBE, 0xEF, 0x92] =
      .ok [0x0190, 0x0000, 0xBEEF] ∧
    parseFrame 3 [0x01, 0x90, 0x4C, 0x00, 0x00, 0x81, 0xBE, 0xEF, 0x93] = .bad 2 := by decide +kernel

/-! ### One step of each instruction (V-SEQ, V-CRQ, V-PRI) -/

/-- V-SEQ-1, first action. -/
theorem test_init_accepted :
    seen (exec .init (idleAt .uninitialized 0x1000)) = some (.initializing, .cmdWrite, []) ∧
    (nextOf (exec .init (idleAt .uninitialized 0x1000))).map (fun t => (t.curOp, t.cmdBuf, t.channel)) =
      some (.init, 0x2003, some 0x1000) := by decide

/-- V-SEQ-8 and V-SEQ-9. -/
theorem test_init_refused :
    seen (exec .init (idleAt .ready 0x1000)) = some (.ready, .idle, [⟨.eState, 2⟩]) ∧
    seen (exec .init (idleAt .failed 0x1000)) = some (.failed, .idle, [⟨.eState, 4⟩]) := by decide

/-- V-SEQ-4, first action. -/
theorem test_measure_accepted :
    seen (exec .measure (idleAt .ready 0x2000)) = some (.measuring, .cmdWrite, []) ∧
    (nextOf (exec .measure (idleAt .ready 0x2000))).map (fun t => (t.curOp, t.cmdBuf, t.channel)) =
      some (.measure, 0x2008, some 0x2000) := by decide

/-- V-SEQ-3 and V-SEQ-10. -/
theorem test_measure_refused :
    seen (exec .measure (idleAt .uninitialized 0x2000)) =
      some (.uninitialized, .idle, [⟨.eState, 0⟩]) ∧
    seen (exec .measure (idleAt .failed 0x2000)) = some (.failed, .idle, [⟨.eState, 4⟩]) := by decide

/-- V-CRQ-1, in FAILED (V-SEQ-14). -/
theorem test_crcClr : (nextOf (exec .crcClr { idleAt .failed 0x3000 with crcAcc := 0x92 })).map
    (fun t => (t.crcAcc, t.state, t.responses)) =
    some (0xFF, .failed, [⟨.ok, 0xFF⟩]) := by decide

/-- V-CRQ-7: a new value that depends on the old one and the operand. -/
theorem test_crcByte : (nextOf (exec (.crcByte 0x34) { idleAt .ready 0x4034 with crcAcc := 0x12 })).map
    (fun t => (t.crcAcc, t.state, t.responses)) = some (0x20, .ready, [⟨.ok, 0x20⟩]) := by decide

/-- V-SEQ-11 and V-SEQ-13. -/
theorem test_getstate :
    seen (exec .getstate (idleAt .failed 0x5000)) = some (.failed, .idle, [⟨.ok, 4⟩]) ∧
    seen (exec .getstate (idleAt .ready 0x5000)) = some (.ready, .idle, [⟨.ok, 2⟩]) := by decide

/-- V-SEQ-1, second action: the bytes 20 03 go to 0x58. -/
theorem test_cmdInit_ok : (nextOf (exec .cmdInit (runningAt .init .cmdWrite [.ok []]))).map
    (fun t => (t.state, t.step, t.busLog)) =
    some (.initializing, .wait, [.write 0x58 [0x20, 0x03] true 0]) := by decide

/-- V-SEQ-2: the write error of an INIT is FAILED. -/
theorem test_cmdInit_err : seen (exec .cmdInit (runningAt .init .cmdWrite [.err])) =
    some (.failed, .idle, [⟨.eTransport, 0⟩]) := by decide

/-- V-SEQ-4, second action: the bytes 20 08. -/
theorem test_cmdMeasure_ok : (nextOf (exec .cmdMeasure (runningAt .measure .cmdWrite [.ok []]))).map
    (fun t => (t.state, t.step, t.busLog)) =
    some (.measuring, .wait, [.write 0x58 [0x20, 0x08] true 0]) := by decide

/-- V-SEQ-5: the write error of a MEASURE is READY. -/
theorem test_cmdMeasure_err : seen (exec .cmdMeasure (runningAt .measure .cmdWrite [.err])) =
    some (.ready, .idle, [⟨.eTransport, 0⟩]) := by decide

/-! ### One step of each action that is no instruction -/

/-- V-PRI-1, V-PRI-2: E_ILLEGAL before E_STATE. -/
theorem test_illegal_first :
    seen (step (idleAt .failed 0x2001)) = some (.failed, .idle, [⟨.eIllegal, 0x2001⟩]) ∧
    seen (step (idleAt .ready 0x1100)) = some (.ready, .idle, [⟨.eIllegal, 0x1100⟩]) := by decide

/-- The timing vectors: at 9 ms an INIT still waits; at 10 ms it answers. -/
theorem test_wait_init :
    seen (step (waitingAt .init 8)) = some (.initializing, .wait, []) ∧
    seen (step (waitingAt .init 9)) = some (.ready, .idle, [⟨.ok, 0⟩]) := by decide

/-- At 11 ms a MEASURE still waits; at 12 ms its read comes next. -/
theorem test_wait_measure :
    seen (step (waitingAt .measure 10)) = some (.measuring, .wait, []) ∧
    seen (step (waitingAt .measure 11)) = some (.measuring, .dataRead, []) := by decide

/-- V-FRM-1, the read. -/
theorem test_read_ok : (nextOf (step (runningAt .measure .dataRead
      [.ok [0x01, 0x90, 0x4C, 0x00, 0x00, 0x81]]))).map (fun t => (t.step, t.rxBuf)) =
    some (.check, #v[0x01, 0x90, 0x4C, 0x00, 0x00, 0x81]) := by decide

/-- V-FRM-17, V-FRM-18, V-FRM-20: five bytes, seven bytes, an error. -/
theorem test_read_fails :
    seen (step (runningAt .measure .dataRead [.ok [0x01, 0x90, 0x4C, 0x00, 0x00]])) =
      some (.ready, .idle, [⟨.eTransport, 1⟩]) ∧
    seen (step (runningAt .measure .dataRead [.ok [0x01, 0x90, 0x4C, 0x00, 0x00, 0x81, 0x00]])) =
      some (.ready, .idle, [⟨.eTransport, 1⟩]) ∧
    seen (step (runningAt .measure .dataRead [.err])) =
      some (.ready, .idle, [⟨.eTransport, 1⟩]) := by decide

/-- V-FRM-2 and V-FRM-4: co2eq is the high half. -/
theorem test_check_ok :
    seen (step (checkAt #v[0x01, 0xF4, 0x33, 0x00, 0x64, 0xFE])) =
      some (.ready, .idle, [⟨.ok, 0x01F40064⟩]) ∧
    seen (step (checkAt #v[0x00, 0x00, 0x81, 0x01, 0x90, 0x4C])) =
      some (.ready, .idle, [⟨.ok, 0x00000190⟩]) := by decide +kernel

/-- V-FRM-10 (a whole-frame check would pass it), V-FRM-13 and V-FRM-16. -/
theorem test_check_fails :
    seen (step (checkAt #v[0x01, 0x90, 0x4C, 0x00, 0x00, 0x00])) =
      some (.ready, .idle, [⟨.eIntegrity, 1⟩]) ∧
    seen (step (checkAt #v[0x01, 0x90, 0x00, 0x00, 0x00, 0x00])) =
      some (.ready, .idle, [⟨.eIntegrity, 0⟩]) ∧
    seen (step (checkAt #v[0x81, 0x00, 0x00, 0x00, 0x00, 0x81])) =
      some (.ready, .idle, [⟨.eIntegrity, 0⟩]) := by decide +kernel

/-- V-RST-3: a reset in a MEASURE's wait gives no response and issues no read. -/
theorem test_reset_in_wait :
    seen (step { waitingAt .measure 4 with resets := [true] }) =
      some (.uninitialized, .idle, []) := by decide

/-- V-RST-2: a reset leaves FAILED and `crc_acc` is 0xFF again. -/
theorem test_reset_in_failed :
    (nextOf (step { idleAt .failed 0x1000 with crcAcc := 0x92, resets := [true] })).map
      (fun t => (t.state, t.crcAcc, t.host)) =
    some (.uninitialized, 0xFF, [.issue 0x1000]) := by decide

/-- The word placed after reset runs as the first instruction (V-SEQ-1, V-SEQ-3, V-PRI-7). -/
theorem test_withFetchWord_sequencer :
    seen (step (State.reset.withFetchWord 16 0x1000)) = some (.initializing, .cmdWrite, []) ∧
    seen (step (State.reset.withFetchWord 16 0x2000)) =
      some (.uninitialized, .idle, [⟨.eState, 0⟩]) ∧
    seen (step (State.reset.withFetchWord 16 0x6000)) =
      some (.uninitialized, .idle, [⟨.eIllegal, 0x6000⟩]) := by decide

/-- V-SEQ-14's request, V-RST-1's CRC.BYTE 0x00, V-SEQ-12. -/
theorem test_withFetchWord_others :
    seen (step (State.reset.withFetchWord 16 0x3000)) = some (.uninitialized, .idle, [⟨.ok, 0xFF⟩]) ∧
    seen (step (State.reset.withFetchWord 16 0x4000)) = some (.uninitialized, .idle, [⟨.ok, 0xAC⟩]) ∧
    seen (step (State.reset.withFetchWord 16 0x5000)) = some (.uninitialized, .idle, [⟨.ok, 0⟩]) := by
  decide

/-- The same of the two wire commands, the port answering `Ok`. -/
theorem test_withFetchWord_commands :
    seen (step ({ State.reset with bus := [.ok []] }.withFetchWord 16 0x2003)) =
      some (.initializing, .wait, []) ∧
    seen (step ({ State.reset with bus := [.ok []] }.withFetchWord 16 0x2008)) =
      some (.measuring, .wait, []) := by decide

/-! ### The assembler (R102 to R104) -/

/-- `CRC.BYTE 190 ; x` and `CRC.BYTE 0xBE`. -/
theorem test_asm_crcByte :
    assembleLine ['C', 'R', 'C', '.', 'B', 'Y', 'T', 'E', ' ', '1', '9', '0', ' ', ';', ' ', 'x'] =
      .ok [0x40BE] ∧
    assembleLine ['C', 'R', 'C', '.', 'B', 'Y', 'T', 'E', ' ', '0', 'x', 'B', 'E'] = .ok [0x40BE] := by
  decide +kernel

/-- `l: INIT`, `.word 0x6000`, and a line with a comment only. -/
theorem test_asm_lines :
    assembleLine ['l', ':', ' ', 'I', 'N', 'I', 'T'] = .ok [0x1000] ∧
    assembleLine ['.', 'w', 'o', 'r', 'd', ' ', '0', 'x', '6', '0', '0', '0'] = .ok [0x6000] ∧
    assembleLine [' ', ';', 'a'] = .ok [] := by decide +kernel

/-- `CRC.CALC 0x31, 50` and `CRC.WORD 0xBEEF` expand. -/
theorem test_asm_pseudo :
    assembleLine ['C', 'R', 'C', '.', 'C', 'A', 'L', 'C', ' ', '0', 'x', '3', '1', ',', ' ', '5', '0'] =
      .ok [0x3000, 0x4031, 0x4032] ∧
    assembleLine ['C', 'R', 'C', '.', 'W', 'O', 'R', 'D', ' ', '0', 'x', 'B', 'E', 'E', 'F'] =
      .ok [0x3000, 0x40BE, 0x40EF] := by decide +kernel

/-- `CRC.BYTE 256` is out of range, `expect OK` is no request, `INIT 1` has an operand too many. -/
theorem test_asm_refused :
    assembleLine ['C', 'R', 'C', '.', 'B', 'Y', 'T', 'E', ' ', '2', '5', '6'] =
      .error .operandOutOfRange ∧
    assembleLine ['e', 'x', 'p', 'e', 'c', 't', ' ', 'O', 'K'] = .error .unknownMnemonic ∧
    assembleLine ['I', 'N', 'I', 'T', ' ', '1'] = .error .operandCount := by decide +kernel

/-! ### Witnesses: states that meet the hypotheses of each statement -/

/-- A valid group, and the frame of V-FRM-1. -/
def goodFrame : Vector Byte 6 := #v[0x01, 0x90, 0x4C, 0x00, 0x00, 0x81]

/-- Boot: the host resets the accumulator, feeds a byte, and then pauses. -/
def feeding : State := { State.reset with host := [.issue 0x3000, .issue 0x40BE, .pause] }

/-- The state of a reset that cut a command write at tick 0, its guard time of 12 ms kept. -/
def guarded : State :=
  { idleAt .uninitialized 0x1000 with busLog := [.reset .cmdWrite 0], clock := 12 }

/-- READY after a MEASURE whose command write failed at tick 0, `T_MEAS_MIN` kept. -/
def retrying : State :=
  { idleAt .ready 0x2000 with
    busLog := [.write 0x58 (encodeCommand Config.cmdMeasure) false 0], clock := 12 }

theorem idleAt_offered (st : SeqState) (w : Word) : Offered w (idleAt st w) := ⟨rfl, rfl, rfl, rfl⟩

theorem undisturbed_of_nil {s : State} (h : s.resets = []) : s.Undisturbed := by
  intro r hr
  rw [h] at hr
  cases hr

theorem witness_DecodeUndoesEncode :
    WellFormed .host (.crcByte 0xFF) = true ∧ WellFormed .wire .cmdMeasure = true := by decide

theorem witness_DecodedWordIsEncoding :
    decode .host 0x40FF = .ok (.crcByte 0xFF) ∧ decode .wire 0x2008 = .ok .cmdMeasure := by decide

theorem witness_ResponseFormat : 5 ≤ (0x500000000 : BitVec 36).extractLsb' 32 4 ∧
    5 ≤ (0xFFFFFFFFF : BitVec 36).extractLsb' 32 4 := by decide

theorem witness_StepRunsDecodedInstr_request : (idleAt .ready 0x2000).resetLine = false ∧
    (idleAt .ready 0x2000).step = .idle ∧
    (idleAt .ready 0x2000).host.head? = some (.issue 0x2000) ∧
    decodeRequest 0x2000 = .ok .measure := by decide

theorem witness_StepRunsDecodedInstr_command : (runningAt .init .cmdWrite []).resetLine = false ∧
    (runningAt .init .cmdWrite []).step = .cmdWrite ∧
    decodeCommand (runningAt .init .cmdWrite []).cmdBuf = .ok .cmdInit := by decide

theorem witness_ResetAbortsSequence :
    ({ waitingAt .measure 4 with resets := [true] } : State).resetLine = true := by decide

theorem witness_ResetTakesTheCutOutcome :
    ({ runningAt .init .cmdWrite [.err] with resets := [true] } : State).resetLine = true ∧
    (runningAt .init .cmdWrite [.err]).step = .cmdWrite ∧
    ({ runningAt .measure .dataRead [.err] with resets := [true] } : State).resetLine = true ∧
    (runningAt .measure .dataRead [.err]).step = .dataRead ∧
    ({ waitingAt .measure 4 with resets := [true] } : State).resetLine = true ∧
    (waitingAt .measure 4).step ≠ .cmdWrite ∧ (waitingAt .measure 4).step ≠ .dataRead := by decide

/-- One bit; the first and the last bit; bursts of 8 bits at both ends. -/
theorem witness_GroupErrorsDetected : group24Ok 0xBEEF92 = true ∧ groupWeight 0x000001 % 2 = 1 ∧
    groupWeight 0x800001 = 2 ∧
    ((0xFF : Byte) ≠ 0 ∧ 16 ≤ 16 ∧ (0xFF0000 : BitVec 24) = (0xFF : Byte).setWidth 24 <<< 16) ∧
    ((0x01 : Byte) ≠ 0 ∧ 0 ≤ 16 ∧ (0x000001 : BitVec 24) = (0x01 : Byte).setWidth 24 <<< 0) := by
  decide +kernel

theorem witness_CrcClrResult : (idleAt .failed 0x3000).step = .idle ∧
    (idleAt .failed 0x3000).channel = none ∧
    (opField 0x30FF = 3 ∧ argField 0x30FF ≠ 0 ∧ Offered 0x30FF (idleAt .ready 0x30FF)) ∧
    (opField 0x3100 = 3 ∧ rsvField 0x3100 ≠ 0 ∧ Offered 0x3100 (idleAt .ready 0x3100)) :=
  ⟨rfl, rfl, ⟨by decide, by decide, idleAt_offered _ _⟩, by decide, by decide, idleAt_offered _ _⟩

theorem witness_CrcByteResult : (idleAt .failed 0x4000).step = .idle ∧
    (idleAt .failed 0x4000).channel = none ∧
    opField 0x4131 = 4 ∧ rsvField 0x4131 ≠ 0 ∧ Offered 0x4131 (idleAt .ready 0x4131) :=
  ⟨rfl, rfl, by decide, by decide, idleAt_offered _ _⟩

theorem witness_CrcStreamOverRuns : feeding.Undisturbed ∧
    ∃ t, Host.Core.run core 2 feeding = .next t ∧
      feeding.host = .issue 0x3000 :: [.issue 0x40BE] ++ t.host ∧
      ∀ w, HostMove.issue w ∈ [HostMove.issue 0x40BE] → decodeRequest w ≠ .ok .crcClr := by
  refine ⟨undisturbed_of_nil rfl, _, rfl, rfl, fun w hw => ?_⟩
  cases List.mem_singleton.mp hw
  decide

theorem witness_CrcAccReadByCrcOnly : (idleAt .ready 0x5000).resetLine = false ∧
    (∀ w b, (idleAt .ready 0x5000).step = .idle →
      (idleAt .ready 0x5000).host.head? = some (.issue w) → decodeRequest w ≠ .ok (.crcByte b)) ∧
    (∀ w, (idleAt .ready 0x5000).step = .idle →
      (idleAt .ready 0x5000).host.head? = some (.issue w) → decodeRequest w ≠ .ok .crcClr) ∧
    ∃ t, step (idleAt .ready 0x5000) = .next t := by
  refine ⟨rfl, fun w b _ hw => ?_, fun w _ hw => ?_, _, rfl⟩
  · cases hw
    rw [test_decode_getstate]
    simp
  · cases hw
    decide

theorem witness_PseudoInstructionsComputeCrc : ([0xBE, 0xEF] : List Byte) ≠ [] := by decide

theorem witness_AssembledWordsDecode : (∀ v, AsmItem.crcWord 0xBEEF ≠ .word v) ∧
    (0x40EF : Word) ∈ (AsmItem.crcWord 0xBEEF).words := ⟨by simp, by decide⟩

theorem witness_GetstateResult : (idleAt .failed 0x5000).step = .idle ∧
    (idleAt .failed 0x5000).channel = none ∧ Legal (idleAt .failed 0x5000) ∧
    (opField 0x5001 = 5 ∧ argField 0x5001 ≠ 0 ∧ Offered 0x5001 (idleAt .ready 0x5001)) ∧
    (opField 0x5F00 = 5 ∧ rsvField 0x5F00 ≠ 0 ∧ Offered 0x5F00 (idleAt .ready 0x5F00)) :=
  ⟨rfl, rfl, idleAt_legal (by decide), ⟨by decide, by decide, idleAt_offered _ _⟩, by decide,
    by decide, idleAt_offered _ _⟩

theorem witness_SequenceAccepted : (idleAt .uninitialized 0x1000).step = .idle ∧
    (idleAt .uninitialized 0x1000).state = .uninitialized ∧ (idleAt .ready 0x2000).step = .idle ∧
    (idleAt .ready 0x2000).state = .ready := by decide

theorem witness_InitRefused : (idleAt .ready 0x1000).step = .idle ∧
    (idleAt .ready 0x1000).channel = none ∧ (idleAt .ready 0x1000).state = .ready ∧
    (idleAt .failed 0x1000).state = .failed := by decide

theorem witness_InitRefused_running : Legal (waitingAt .init 0) ∧ Legal (waitingAt .measure 0) ∧
    (waitingAt .init 0).state = .initializing ∧ (waitingAt .measure 0).state = .measuring ∧
    (waitingAt .init 0).resetLine = false ∧ (∃ t, step (waitingAt .init 0) = .next t) ∧
    ∃ t, step (waitingAt .measure 0) = .next t :=
  ⟨waitingAt_legal (by decide), waitingAt_legal (by decide), rfl, rfl, rfl, ⟨_, rfl⟩, _, rfl⟩

theorem witness_MeasureRefused : (idleAt .uninitialized 0x2000).step = .idle ∧
    (idleAt .uninitialized 0x2000).channel = none ∧
    (idleAt .uninitialized 0x2000).state = .uninitialized ∧
    (idleAt .failed 0x2000).state = .failed := by decide

theorem witness_IllegalWordRefused : Offered 0x6000 (idleAt .ready 0x6000) ∧
    ∀ i, WellFormed .host i = true → encode i ≠ 0x6000 := by
  refine ⟨idleAt_offered _ _, fun i hi he => ?_⟩
  cases i with
  | crcByte b =>
    have h := congrArg (fun w : Word => w.getLsbD 13) he
    simp [encode] at h
  | init => revert he; decide
  | measure => revert he; decide
  | crcClr => revert he; decide
  | getstate => revert he; decide
  | cmdInit => revert hi; decide
  | cmdMeasure => revert hi; decide

theorem witness_CommandWriteResult : (runningAt .init .cmdWrite [.ok []]).outcome = .ok [] ∧
    (runningAt .measure .cmdWrite [.err]).outcome = .err := by decide

theorem witness_InitFailure : Legal (runningAt .init .cmdWrite [.err]) ∧
    (runningAt .init .cmdWrite [.err]).resetLine = false ∧
    (runningAt .init .cmdWrite [.err]).step = .cmdWrite ∧
    (runningAt .init .cmdWrite [.err]).curOp = .init ∧
    (runningAt .init .cmdWrite [.err]).outcome = .err :=
  ⟨runningAt_legal (by decide) (by decide), rfl, rfl, rfl, rfl⟩

theorem witness_UnansweredTransactionStands : Legal (runningAt .init .cmdWrite [.never]) ∧
    (runningAt .init .cmdWrite [.never]).outcome = .never ∧
    (runningAt .init .cmdWrite [.never]).step = .cmdWrite ∧
    Legal (runningAt .measure .dataRead [.never]) ∧
    (runningAt .measure .dataRead [.never]).outcome = .never ∧
    (runningAt .measure .dataRead [.never]).step = .dataRead ∧
    (runningAt .measure .dataRead [.never]).resetLine = false :=
  ⟨runningAt_legal (by decide) (by decide), rfl, rfl, runningAt_legal (by decide) (by decide), rfl,
    rfl, rfl⟩

theorem witness_InitWaitKept : Legal (runningAt .init .cmdWrite [.ok []]) ∧
    (runningAt .init .cmdWrite [.ok []]).outcome = .ok [] ∧
    Legal (waitingAt .init 9) ∧ Timed (waitingAt .init 9) ∧ (waitingAt .init 9).step = .wait ∧
    (waitingAt .init 9).curOp = .init ∧ (waitingAt .init 9).resetLine = false :=
  ⟨runningAt_legal (by decide) (by decide), rfl, waitingAt_legal (by decide), waitingAt_timed _ _,
    rfl, rfl, rfl⟩

theorem witness_MeasureWaitKept : Legal (runningAt .measure .cmdWrite [.ok []]) ∧
    (runningAt .measure .cmdWrite [.ok []]).outcome = .ok [] ∧
    Legal (waitingAt .measure 11) ∧ Timed (waitingAt .measure 11) ∧
    (waitingAt .measure 11).step = .wait ∧ (waitingAt .measure 11).curOp = .measure ∧
    (waitingAt .measure 11).resetLine = false :=
  ⟨runningAt_legal (by decide) (by decide), rfl, waitingAt_legal (by decide), waitingAt_timed _ _,
    rfl, rfl, rfl⟩

theorem witness_WaitEndsAtItsBound : (waitingAt .init 8).Undisturbed ∧
    (waitingAt .init 8).step = .wait ∧
    (waitingAt .init 8).waitCnt + 1 <
      (waitingAt .init 8).curOp.waitTicks (waitingAt .init 8).params ∧
    (waitingAt .init 8).waitCnt + 1 + 1 =
      (waitingAt .init 8).curOp.waitTicks (waitingAt .init 8).params :=
  ⟨undisturbed_of_nil rfl, rfl, by decide, by decide⟩

theorem witness_FrameReadResult :
    (runningAt .measure .dataRead [.ok goodFrame.toList]).resetLine = false ∧
    (runningAt .measure .dataRead [.ok goodFrame.toList]).step = .dataRead ∧
    (runningAt .measure .dataRead [.ok goodFrame.toList]).curOp = .measure ∧
    (runningAt .measure .dataRead [.ok goodFrame.toList]).outcome = .ok goodFrame.toList ∧
    (runningAt .measure .dataRead [.err]).outcome = .err ∧
    (runningAt .measure .dataRead [.ok [1, 2, 3, 4, 5]]).outcome = .ok [1, 2, 3, 4, 5] ∧
    (runningAt .measure .dataRead [.ok [1, 2, 3, 4, 5, 6, 7]]).outcome =
      .ok [1, 2, 3, 4, 5, 6, 7] := by decide

theorem witness_MeasureSuccess : (checkAt goodFrame).resetLine = false ∧
    (checkAt goodFrame).step = .check ∧ (checkAt goodFrame).curOp = .measure ∧
    groupOk goodFrame[0] goodFrame[1] goodFrame[2] = true ∧
    groupOk goodFrame[3] goodFrame[4] goodFrame[5] = true := by decide +kernel

theorem witness_MeasureFailures_write : Legal (runningAt .measure .cmdWrite [.err]) ∧
    (runningAt .measure .cmdWrite [.err]).resetLine = false ∧
    (runningAt .measure .cmdWrite [.err]).step = .cmdWrite ∧
    (runningAt .measure .cmdWrite [.err]).curOp = .measure ∧
    (runningAt .measure .cmdWrite [.err]).outcome = .err :=
  ⟨runningAt_legal (by decide) (by decide), rfl, rfl, rfl, rfl⟩

theorem witness_MeasureFailures_check :
    (checkAt #v[0x01, 0x90, 0x4D, 0x00, 0x00, 0x81]).step = .check ∧
    (checkAt #v[0x01, 0x90, 0x4D, 0x00, 0x00, 0x81]).curOp = .measure ∧
    groupOk 0x01 0x90 0x4D = false ∧
    (checkAt #v[0x01, 0x90, 0x4C, 0x00, 0x01, 0x81]).resetLine = false ∧
    groupOk 0x01 0x90 0x4C = true ∧ groupOk 0x00 0x01 0x81 = false := by decide +kernel

theorem witness_ParseFrameResult : 1 ≤ 1 ∧ ([0x00, 0x00, 0x81] : List Byte).length = 3 * 1 ∧
    1 ≤ 2 ∧ goodFrame.toList.length = 3 * 2 := by decide

theorem witness_LegalKept : Legal (idleAt .ready 0x2000) ∧
    ∃ t, step (idleAt .ready 0x2000) = .next t := ⟨idleAt_legal (by decide), _, rfl⟩

theorem witness_LegalStateNeverStops : Legal (runningAt .measure .check []) :=
  runningAt_legal (by decide) (by decide)

theorem witness_CommandSpacingKept : Legal (waitingAt .measure 11) ∧ Timed (waitingAt .measure 11) ∧
    ∃ t, step (waitingAt .measure 11) = .next t :=
  ⟨waitingAt_legal (by decide), waitingAt_timed _ _, _, rfl⟩

theorem guarded_peerTimed : PeerTimed guarded where
  spaced := ⟨trivial, fun h => absurd h (by decide), trivial⟩
  past := Nat.zero_le 12
  waiting := fun h => by cases h
  onBus := fun h => by rcases h with h | h | h <;> cases h
  idleReady := fun _ h => by cases h
  idleFresh := fun _ _ => .inr ⟨_, _, _, rfl⟩

/-- An INIT exactly 12 ms after a reset that cut a command write (R243). -/
theorem witness_DutifulHostSpacesCommands_reset : Legal guarded ∧ PeerTimed guarded ∧
    HostKeepsDuties guarded ∧ guarded.starts = some .init ∧ ∃ t, step guarded = .next t := by
  refine ⟨⟨testParams_legal, fun _ => ⟨rfl, .inl rfl⟩, fun h => absurd rfl h,
    fun h => ?_, fun h => ?_, Nat.two_pow_pos 5⟩, guarded_peerTimed,
    ⟨fun _ cut t older h _ => ?_, fun h => ?_⟩, rfl, _, rfl⟩
  · rcases h with h | h <;> cases h
  · cases h
  · cases h
    exact ⟨by decide, by decide⟩
  · cases h

theorem retrying_peerTimed : PeerTimed retrying where
  spaced := ⟨trivial, fun _ gap t h => (by cases h), trivial⟩
  past := Nat.zero_le 12
  waiting := fun h => by cases h
  onBus := fun h => by rcases h with h | h | h <;> cases h
  idleReady := fun _ _ => .inr ⟨_, _, rfl⟩
  idleFresh := fun _ h => by cases h

/-- A MEASURE exactly 12 ms after a failed command write (R244). -/
theorem witness_DutifulHostSpacesCommands_write : Legal retrying ∧ PeerTimed retrying ∧
    HostKeepsDuties retrying ∧ retrying.starts = some .measure ∧ ∃ t, step retrying = .next t := by
  refine ⟨⟨testParams_legal, fun _ => ⟨rfl, .inr (.inl rfl)⟩, fun h => absurd rfl h,
    fun h => ?_, fun h => ?_, Nat.two_pow_pos 5⟩, retrying_peerTimed,
    ⟨fun h => ?_, fun _ a bytes t older h => ?_⟩, rfl, _, rfl⟩
  · rcases h with h | h <;> cases h
  · cases h
  · cases h
  · cases h
    exact ⟨by decide, by decide⟩

theorem witness_OnlyTwoTransactionShapes : ShapesLegal (waitingAt .init 3) ∧
    ∃ t, step (waitingAt .init 3) = .next t := by
  refine ⟨fun e he => ?_, _, rfl⟩
  cases List.mem_singleton.mp he
  decide

theorem witness_OneTransactionPerStep : (runningAt .init .cmdWrite [.ok []]).resetLine = false ∧
    ∃ t, step (runningAt .init .cmdWrite [.ok []]) = .next t := ⟨rfl, _, rfl⟩

theorem witness_ErrorDataLegal : Legal (idleAt .ready 0x1000) ∧ ResponsesLegal (idleAt .ready 0x1000) ∧
    ∃ t, step (idleAt .ready 0x1000) = .next t :=
  ⟨idleAt_legal (by decide), fun r hr => (by cases hr), _, rfl⟩

theorem witness_BusyChannelBlocksHost : (waitingAt .measure 3).step ≠ .idle ∧
    (waitingAt .measure 3).resetLine = false ∧ ∃ t, step (waitingAt .measure 3) = .next t :=
  ⟨by decide, rfl, _, rfl⟩

theorem witness_EachRequestAnsweredOnce : Legal (idleAt .ready 0x5000) ∧
    (idleAt .ready 0x5000).Undisturbed ∧
    ∃ t, Host.Core.run core 1 (idleAt .ready 0x5000) = .next t :=
  ⟨idleAt_legal (by decide), undisturbed_of_nil rfl, _, rfl⟩

theorem witness_StateTransitions : Legal (runningAt .init .cmdWrite [.err]) ∧
    (runningAt .init .cmdWrite [.err]).resetLine = false ∧
    ∃ t, step (runningAt .init .cmdWrite [.err]) = .next t :=
  ⟨runningAt_legal (by decide) (by decide), rfl, _, rfl⟩

theorem witness_StepTransitions : Legal (waitingAt .measure 11) ∧
    (waitingAt .measure 11).resetLine = false ∧ ∃ t, step (waitingAt .measure 11) = .next t :=
  ⟨waitingAt_legal (by decide), rfl, _, rfl⟩

theorem witness_FailedIsTerminal : Legal (idleAt .failed 0x1000) ∧
    (idleAt .failed 0x1000).state = .failed ∧ (idleAt .failed 0x1000).resetLine = false ∧
    (∃ t, step (idleAt .failed 0x1000) = .next t) ∧
    ({ idleAt .failed 0x1000 with resets := [true] } : State).resetLine = true :=
  ⟨idleAt_legal (by decide), rfl, rfl, ⟨_, rfl⟩, rfl⟩

theorem witness_ErrorPath_state : Legal (idleAt .failed 0x2000) ∧
    (idleAt .failed 0x2000).resetLine = false ∧
    ∃ t, step (idleAt .failed 0x2000) = .next t ∧
      t.responses = ⟨.eState, 4⟩ :: (idleAt .failed 0x2000).responses :=
  ⟨idleAt_legal (by decide), rfl, _, rfl, rfl⟩

theorem witness_ErrorPath_illegal : Legal (idleAt .ready 0x6000) ∧
    ∃ t, step (idleAt .ready 0x6000) = .next t ∧
      t.responses = ⟨.eIllegal, 0x6000⟩ :: (idleAt .ready 0x6000).responses :=
  ⟨idleAt_legal (by decide), _, rfl, rfl⟩

theorem witness_ErrorPath_transport : Legal (runningAt .init .cmdWrite [.err]) ∧
    (∃ t, step (runningAt .init .cmdWrite [.err]) = .next t ∧
      t.responses = ⟨.eTransport, 0⟩ :: (runningAt .init .cmdWrite [.err]).responses) ∧
    Legal (runningAt .measure .dataRead [.err]) ∧
    ∃ t, step (runningAt .measure .dataRead [.err]) = .next t ∧
      t.responses = ⟨.eTransport, 1⟩ :: (runningAt .measure .dataRead [.err]).responses :=
  ⟨runningAt_legal (by decide) (by decide), ⟨_, rfl, rfl⟩, runningAt_legal (by decide) (by decide), _,
    rfl, rfl⟩

/-- `rx_buf` is six zero bytes here, and their first group fails (R150). -/
theorem witness_ErrorPath_integrity : Legal (runningAt .measure .check []) ∧
    (nextOf (step (runningAt .measure .check []))).map State.responses =
      some (⟨.eIntegrity, 0⟩ :: (runningAt .measure .check []).responses) :=
  ⟨runningAt_legal (by decide) (by decide), by decide +kernel⟩

theorem witness_InitSequence :
    (∀ bus, Legal { idleAt .uninitialized 0x1000 with bus := bus }) ∧
    (idleAt .uninitialized 0x1000).Undisturbed ∧ Offered 0x1000 (idleAt .uninitialized 0x1000) ∧
    (idleAt .uninitialized 0x1000).state = .uninitialized ∧
    ({ idleAt .uninitialized 0x1000 with bus := [.ok []] } : State).outcome = .ok [] ∧
    ({ idleAt .uninitialized 0x1000 with bus := [.err] } : State).outcome = .err := by
  refine ⟨fun bus => ?_, undisturbed_of_nil rfl, idleAt_offered _ _, rfl, rfl, rfl⟩
  have h := idleAt_legal (w := 0x1000) (.inl rfl : SeqState.uninitialized = .uninitialized ∨ _)
  exact ⟨h.params, h.idle, h.busy, h.measureOnly, h.waiting, h.counter⟩

/-- The frame of V-FRM-10: group 1 fails. -/
def badFrame : Vector Byte 6 := #v[0x01, 0x90, 0x4C, 0x00, 0x00, 0x00]

/-- Both branches of the response: a frame of two good groups, and one whose group 1 fails. -/
theorem witness_MeasureSequence_frames :
    parseFrame 2 goodFrame.toList = .ok [0x0190, 0x0000] ∧
    parseFrame 2 badFrame.toList = .bad 1 := by decide +kernel

/-- READY, offered a MEASURE, the port answering `Ok` and then the frame `f`. -/
def measuring (f : Vector Byte 6) : State :=
  { idleAt .ready 0x2000 with bus := [.ok [], .ok f.toList] }

theorem measuring_legal (f : Vector Byte 6) : Legal (measuring f) := by
  have h := idleAt_legal (w := 0x2000) (.inr (.inl rfl) : SeqState.ready = .uninitialized ∨ _)
  exact ⟨h.params, h.idle, h.busy, h.measureOnly, h.waiting, h.counter⟩

theorem witness_MeasureSequence_good : Legal (measuring goodFrame) ∧
    (measuring goodFrame).Undisturbed ∧ Offered 0x2000 (measuring goodFrame) ∧
    (measuring goodFrame).state = .ready ∧
    (measuring goodFrame).bus = .ok [] :: .ok goodFrame.toList :: [] :=
  ⟨measuring_legal _, undisturbed_of_nil rfl, ⟨rfl, rfl, rfl, rfl⟩, rfl, rfl⟩

theorem witness_MeasureSequence_bad : Legal (measuring badFrame) ∧
    (measuring badFrame).Undisturbed ∧ Offered 0x2000 (measuring badFrame) ∧
    (measuring badFrame).state = .ready ∧
    (measuring badFrame).bus = .ok [] :: .ok badFrame.toList :: [] :=
  ⟨measuring_legal _, undisturbed_of_nil rfl, ⟨rfl, rfl, rfl, rfl⟩, rfl, rfl⟩

end Sys2Proof.Tests
end

/-! SUPPORT. Proofs about the step as a whole: from a legal state it answers a next state, `BlockMove` is
exactly what the block does, and only the CRC requests see `crc_acc`. -/

namespace Sys2Proof.Machine

/-! ### Where the machine can stop -/

/-- No instruction ends in a fault or a refusal: every arm of `exec` answers a next state. -/
theorem exec_next (i : Instr) (s : State) : ∃ t, exec i s = .next t := by
  cases i <;> exact ⟨_, rfl⟩

theorem acceptRequest_next (w : Word) (s : State) : ∃ t, acceptRequest w s = .next t := by
  unfold acceptRequest
  split
  · exact exec_next _ s
  · exact ⟨_, rfl⟩

theorem stepIdle_next (s : State) : ∃ t, stepIdle s = .next t := by
  unfold stepIdle
  split
  · exact ⟨_, rfl⟩
  · exact ⟨_, rfl⟩
  · exact acceptRequest_next _ _

theorem step_at_idle {s : State} (hl : s.resetLine = false) (hs : s.step = .idle) :
    step s = stepIdle s.sampleReset := by
  rw [step_of_released hl]
  simp [stepBlock, hs]

theorem step_of_asserted {s : State} (h : s.resetLine = true) :
    step s = .next s.sampleReset.applyReset := by simp [step, h]

/-- Settles O37: a reset and an idle block never stop, and at each other value of `step` the legal
combinations of registers (R177) rule out the fault. -/
theorem legalStateNeverStops : Obligations.LegalStateNeverStops := by
  intro s legal
  cases hl : s.resetLine with
  | true => exact ⟨_, step_of_asserted hl⟩
  | false =>
    cases hs : s.step with
    | idle => exact step_at_idle hl hs ▸ stepIdle_next s.sampleReset
    | cmdWrite =>
      obtain ⟨_, _, hcmd⟩ := legal.busy (by simp [hs])
      exact ⟨_, step_at_cmdWrite hl hs hcmd⟩
    | wait => exact ⟨_, step_at_wait hl hs⟩
    | dataRead => exact ⟨_, step_at_dataRead hl hs (legal.measureOnly (.inl hs))⟩
    | check => exact ⟨_, step_at_check hl hs (legal.measureOnly (.inr hs))⟩

/-! ### `BlockMove` says exactly what the block does -/

theorem stepBlock_of_request {s : State} {w : Word} {rest : List HostMove} {i : Instr}
    (hs : s.step = .idle) (hh : s.host = .issue w :: rest) (hi : decodeRequest w = .ok i) :
    stepBlock s = exec i { s with host := rest } := by
  simp [stepBlock, stepIdle, acceptRequest, hs, hh, hi]

theorem stepBlock_of_illegal {s : State} {w : Word} {rest : List HostMove}
    (hs : s.step = .idle) (hh : s.host = .issue w :: rest) (hw : ∀ i, decodeRequest w ≠ .ok i) :
    stepBlock s = .next (State.raiseIllegal w { s with host := rest }) := by
  cases hd : decodeRequest w with
  | ok i => exact absurd hd (hw i)
  | error e => simp [stepBlock, stepIdle, acceptRequest, hs, hh, hd]

theorem stepBlock_of_command {s : State} {op : Op} (hs : s.step = .cmdWrite)
    (hc : s.cmdBuf = op.command) :
    stepBlock s = .next (s.finishWrite (encodeCommand op.command) s.outcome) := by
  simp only [stepBlock, hs, stepCommand, hc]
  cases op <;> rfl

theorem stepBlock_at_wait {s : State} (hs : s.step = .wait) :
    stepBlock s = .next s.waitTick := by simp [stepBlock, hs]

theorem stepBlock_of_waited {s : State} (hs : s.step = .wait)
    (hle : s.curOp.waitTicks s.params ≤ s.waitCnt + 1) : stepBlock s = .next s.tick.endWait := by
  rw [stepBlock_at_wait hs]
  exact congrArg _ (if_neg hle.not_gt)

theorem stepBlock_at_dataRead {s : State} (hs : s.step = .dataRead) (hop : s.curOp = .measure) :
    stepBlock s = .next (s.finishRead s.outcome) := by
  simp [stepBlock, stepMeasureOnly, State.readData, hs, hop]

theorem stepBlock_at_check {s : State} (hs : s.step = .check) (hop : s.curOp = .measure) :
    stepBlock s = .next s.checkFrame := by simp [stepBlock, stepMeasureOnly, hs, hop]

/-- The converse of `stepBlock_move`: each move is what the block does where the move's guard holds. -/
theorem BlockMove.stepBlock_eq {s t : State} (h : BlockMove s t) : stepBlock s = .next t := by
  cases h with
  | quiet hs hh => simp [stepBlock, stepIdle, hs, hh]
  | pause hs hh => simp [stepBlock, stepIdle, hs, hh]
  | illegal hs hh hw => exact stepBlock_of_illegal hs hh hw
  | initAccepted hs hh hi hq => simp [stepBlock_of_request hs hh hi, exec, execInit, hq]
  | initRefused hs hh hi hq => simp [stepBlock_of_request hs hh hi, exec, execInit, hq]
  | measureAccepted hs hh hi hq => simp [stepBlock_of_request hs hh hi, exec, execMeasure, hq]
  | measureRefused hs hh hi hq => simp [stepBlock_of_request hs hh hi, exec, execMeasure, hq]
  | crcClr hs hh hi => exact stepBlock_of_request hs hh hi
  | crcByte hs hh hi => exact stepBlock_of_request hs hh hi
  | getstate hs hh hi => exact stepBlock_of_request hs hh hi
  | writeUnanswered hs hc ho => rw [stepBlock_of_command hs hc, ho]; rfl
  | writeFailed hs hc ho => rw [stepBlock_of_command hs hc, ho]; rfl
  | written hs hc ho => rw [stepBlock_of_command hs hc, ho]; rfl
  | ticked hs hlt => simp [stepBlock_at_wait hs, State.waitTick, hlt]
  | initDone hs hle hop => simp [stepBlock_of_waited hs hle, State.endWait, hop]
  | measureWaited hs hle hop => simp [stepBlock_of_waited hs hle, State.endWait, hop]
  | readUnanswered hs hop ho => rw [stepBlock_at_dataRead hs hop, ho]; rfl
  | readFailed hs hop ho => rw [stepBlock_at_dataRead hs hop, ho]; rfl
  | readWrongLength hs hop ho hl =>
    simp [stepBlock_at_dataRead hs hop, ho, State.finishRead, frameOf_eq_none.mpr hl, frameBytes,
      Config.groupBytes, Config.measWords]
  | readDone hs hop ho =>
    simp [stepBlock_at_dataRead hs hop, ho, State.finishRead, frameOf_eq_some.mpr rfl, frameBytes,
      Config.groupBytes, Config.measWords]
  | groupWrong hs hop _ hb => simp [stepBlock_at_check hs hop, State.checkFrame, hb]
  | measured hs hop hb => simp [stepBlock_at_check hs hop, State.checkFrame, hb]

theorem stepBlock_eq_next {s t : State} : stepBlock s = .next t ↔ BlockMove s t :=
  ⟨stepBlock_move, BlockMove.stepBlock_eq⟩

/-! ### The rest of the machine does not see `crc_acc` -/

/-- `s` with another value in `crc_acc`. -/
def State.withCrc (a : Byte) (s : State) : State := { s with crcAcc := a }

/-- At its next step `s` takes no CRC.CLR and no CRC.BYTE from the host. -/
def State.NoCrcRequest (s : State) : Prop :=
  ∀ w rest, s.step = .idle → s.host = .issue w :: rest →
    decodeRequest w ≠ .ok .crcClr ∧ ∀ b, decodeRequest w ≠ .ok (.crcByte b)

/-- Every move but those of the two CRC requests is also a move from the state with another `crc_acc`,
to the state with that other `crc_acc` (R34): neither its guard nor its effect reads the register. -/
theorem BlockMove.withCrc {s t : State} (a : Byte) (h : BlockMove s t) (hn : s.NoCrcRequest) :
    BlockMove (s.withCrc a) (t.withCrc a) := by
  cases h with
  | quiet hs hh => exact .quiet hs hh
  | pause hs hh => exact .pause hs hh
  | illegal hs hh hw => exact .illegal hs hh hw
  | initAccepted hs hh hi hq => exact .initAccepted hs hh hi hq
  | initRefused hs hh hi hq => exact .initRefused hs hh hi hq
  | measureAccepted hs hh hi hq => exact .measureAccepted hs hh hi hq
  | measureRefused hs hh hi hq => exact .measureRefused hs hh hi hq
  | crcClr hs hh hi => exact absurd hi (hn _ _ hs hh).1
  | crcByte hs hh hi => exact absurd hi ((hn _ _ hs hh).2 _)
  | getstate hs hh hi => exact .getstate hs hh hi
  | writeUnanswered hs hc ho => exact .writeUnanswered hs hc ho
  | writeFailed hs hc ho => exact .writeFailed hs hc ho
  | written hs hc ho => exact .written hs hc ho
  | ticked hs hlt => exact .ticked hs hlt
  | initDone hs hle hop => exact .initDone hs hle hop
  | measureWaited hs hle hop => exact .measureWaited hs hle hop
  | readUnanswered hs hop ho => exact .readUnanswered hs hop ho
  | readFailed hs hop ho => exact .readFailed hs hop ho
  | readWrongLength hs hop ho hl => exact .readWrongLength hs hop ho hl
  | readDone hs hop ho => exact .readDone hs hop ho
  | groupWrong hs hop hi hb => exact .groupWrong hs hop hi hb
  | measured hs hop hb => exact .measured hs hop hb

theorem step_withCrc {s t : State} (a : Byte) (hl : s.resetLine = false) (hn : s.NoCrcRequest)
    (h : step s = .next t) : step (s.withCrc a) = .next (t.withCrc a) := by
  have move : BlockMove s.sampleReset t := stepBlock_eq_next.mp (step_of_released hl ▸ h)
  calc step (s.withCrc a)
      _ = stepBlock (s.sampleReset.withCrc a) := step_of_released (s := s.withCrc a) hl
      _ = .next (t.withCrc a) := stepBlock_eq_next.mpr (move.withCrc a hn)

/-- Settles O17. That `crc_acc` stays as it is follows from `step_withCrc` too: writing into `s` the value
its `crc_acc` holds already gives `s` again, so the same step leaves that value in `t`. -/
theorem crcAccReadByCrcOnly : Obligations.CrcAccReadByCrcOnly := by
  intro s t a hl hbyte hclr h
  have hn : s.NoCrcRequest := fun w rest hs hh =>
    ⟨hclr w hs (by rw [hh]; rfl), fun b => hbyte w b hs (by rw [hh]; rfl)⟩
  have same : t = t.withCrc s.crcAcc :=
    Host.Outcome.next.inj (h.symm.trans (step_withCrc s.crcAcc hl hn h))
  have frame : t.crcAcc = (t.withCrc s.crcAcc).crcAcc := congrArg State.crcAcc same
  exact ⟨frame, step_withCrc a hl hn h⟩

end Sys2Proof.Machine

/-! SUPPORT. Proofs about the bus history (20_memory.md): what a step can add to it, said once of the
block's moves, and the two statements that follow. -/

namespace Sys2Proof.Machine

/-! ### The two transaction shapes -/

theorem legalShape_write (op : Op) (ok : Bool) (time : Nat) :
    (BusEvent.write Config.devAddr (encodeCommand op.command) ok time).legalShape = true := by
  cases op <;> rfl

theorem legalShape_read (answer : Option (List Byte)) (time : Nat) :
    (BusEvent.read Config.devAddr 6 answer time).legalShape = true := rfl

/-! ### What a step does on the bus -/

/-- From `s` to `t` the block finishes the transaction `e`, one of the two shapes: it is the one event
added to the history, one outcome is taken for it, and the value of `step` that issued it is left
(R67, R69, R70). -/
structure Transacts (e : BusEvent) (s t : State) : Prop where
  logged : t.busLog = e :: s.busLog
  transaction : e.isTransaction = true
  shape : e.legalShape = true
  outcome : t.busIdx = s.busIdx + 1
  issuer : s.step = .cmdWrite ∨ s.step = .dataRead
  left : t.step ≠ s.step

theorem transacts_of_write {s t : State} {op : Op} {ok : Bool} (hs : s.step = .cmdWrite)
    (logged : t.busLog = .write Config.devAddr (encodeCommand op.command) ok s.clock :: s.busLog)
    (outcome : t.busIdx = s.busIdx + 1) (left : t.step ≠ .cmdWrite) : ∃ e, Transacts e s t :=
  ⟨_, logged, rfl, legalShape_write op ok s.clock, outcome, .inl hs, hs ▸ left⟩

theorem transacts_of_read {s t : State} {answer : Option (List Byte)} (hs : s.step = .dataRead)
    (logged : t.busLog = .read Config.devAddr 6 answer s.clock :: s.busLog)
    (outcome : t.busIdx = s.busIdx + 1) (left : t.step ≠ .dataRead) : ∃ e, Transacts e s t :=
  ⟨_, logged, rfl, legalShape_read answer s.clock, outcome, .inr hs, hs ▸ left⟩

/-- Only the five moves that take the bus port's answer touch the bus; each finishes one transaction. -/
theorem BlockMove.bus_cases {s t : State} (h : BlockMove s t) :
    (t.busLog = s.busLog ∧ t.busIdx = s.busIdx) ∨ ∃ e, Transacts e s t := by
  cases h with
  | writeFailed hs => exact .inr (transacts_of_write hs rfl rfl (by simp))
  | written hs => exact .inr (transacts_of_write hs rfl rfl (by simp))
  | readFailed hs => exact .inr (transacts_of_read hs rfl rfl (by simp))
  | readWrongLength hs => exact .inr (transacts_of_read hs rfl rfl (by simp))
  | readDone hs => exact .inr (transacts_of_read hs rfl rfl (by simp))
  | _ => exact .inl ⟨rfl, rfl⟩

/-! ### The statements -/

theorem shapesLegal_of_cons {s t : State} {e : BusEvent} (hs : ShapesLegal s)
    (logged : t.busLog = e :: s.busLog) (he : e.legalShape = true) : ShapesLegal t := by
  unfold ShapesLegal
  rw [logged]
  exact List.forall_mem_cons.mpr ⟨he, hs⟩

/-- Settles O42: a reset adds its own event to the history, which is no transaction, and a move of the
block adds nothing or a transaction of one of the two shapes. -/
theorem onlyTwoTransactionShapes : Obligations.OnlyTwoTransactionShapes := by
  intro s t hs h
  rcases step_cases h with ⟨_, rfl⟩ | ⟨_, move⟩
  · exact shapesLegal_of_cons hs rfl rfl
  · rcases move.bus_cases with ⟨same, _⟩ | ⟨e, he⟩
    · unfold ShapesLegal
      rw [same]
      exact hs
    · exact shapesLegal_of_cons hs he.logged he.shape

/-- Settles O43: with no reset the step is a move of the block, and sampling the reset line changes
nothing the statement speaks of. -/
theorem oneTransactionPerStep : Obligations.OneTransactionPerStep := by
  intro s t hl h
  have move : BlockMove s.sampleReset t := stepBlock_eq_next.mp (step_of_released hl ▸ h)
  rcases move.bus_cases with same | ⟨e, he⟩
  · exact .inl same
  · exact .inr ⟨e, he.logged, he.transaction, he.outcome, he.issuer, he.left⟩

end Sys2Proof.Machine

/-! SUPPORT. Proofs about the encoding (30_encoding.md): the request decoder and the encoder undo each
other, the request words are those the opcode table's masks describe, and the response format. -/

namespace Sys2Proof

/-! ### The fields of a word put together from its fields (R91) -/

@[simp] theorem opField_append (op rsv : BitVec 4) (arg : Byte) : opField (op ++ rsv ++ arg) = op :=
  (BitVec.extractLsb'_append_eq_of_le (by decide)).trans BitVec.extractLsb'_append_eq_left

@[simp] theorem rsvField_append (op rsv : BitVec 4) (arg : Byte) :
    rsvField (op ++ rsv ++ arg) = rsv :=
  (BitVec.extractLsb'_append_eq_of_le (by decide)).trans BitVec.extractLsb'_append_eq_right

@[simp] theorem argField_append (op rsv : BitVec 4) (arg : Byte) :
    argField (op ++ rsv ++ arg) = arg :=
  BitVec.extractLsb'_append_eq_right

/-- CRC.BYTE's word by its fields (R92): `OP` 4, `RSV` 0 and the operand in `ARG`. -/
theorem encode_crcByte (b : Byte) : encode (.crcByte b) = 4#4 ++ 0#4 ++ b := by
  rw [BitVec.append_def]
  rfl

@[simp] theorem opField_encode_crcByte (b : Byte) : opField (encode (.crcByte b)) = 4 := by
  rw [encode_crcByte, opField_append]
  rfl

@[simp] theorem rsvField_encode_crcByte (b : Byte) : rsvField (encode (.crcByte b)) = 0 := by
  rw [encode_crcByte, rsvField_append]
  rfl

@[simp] theorem argField_encode_crcByte (b : Byte) : argField (encode (.crcByte b)) = b := by
  rw [encode_crcByte, argField_append]

/-! ### The decoder and the encoder -/

/-- Decoding undoes encoding on the host channel: the four words without an operand are computed, and
CRC.BYTE's is read by its fields. -/
theorem decodeRequest_encode {i : Instr} (hi : i.port = .host) :
    decodeRequest (encode i) = .ok i := by
  cases i with
  | init => rfl
  | measure => rfl
  | crcClr => rfl
  | crcByte b => simp [decodeRequest, decodeOp]
  | getstate => rfl
  | cmdInit => cases hi
  | cmdMeasure => cases hi

/-- A word that decodes has the fields of one row (`decodeRequest_eq_ok`), and those fields are the
whole word (`word_eq_fields`). -/
theorem encode_of_decodeRequest {w : Word} {i : Instr} (h : decodeRequest w = .ok i) :
    i.port = .host ∧ encode i = w := by
  obtain ⟨hrsv, row⟩ := decodeRequest_eq_ok h
  rw [← word_eq_fields w, hrsv]
  rcases row with ⟨hop, harg, rfl⟩ | ⟨hop, harg, rfl⟩ | ⟨hop, harg, rfl⟩ | ⟨hop, rfl⟩ |
    ⟨hop, harg, rfl⟩
  · rw [hop, harg]; exact ⟨rfl, rfl⟩
  · rw [hop, harg]; exact ⟨rfl, rfl⟩
  · rw [hop, harg]; exact ⟨rfl, rfl⟩
  · rw [hop]; exact ⟨rfl, encode_crcByte _⟩
  · rw [hop, harg]; exact ⟨rfl, rfl⟩

theorem decodeRequest_eq_ok_iff {w : Word} {i : Instr} :
    decodeRequest w = .ok i ↔ i.port = .host ∧ encode i = w :=
  ⟨encode_of_decodeRequest, fun ⟨hi, hw⟩ => hw ▸ decodeRequest_encode hi⟩

theorem decodeCommand_eq_ok_iff {w : Word} {i : Instr} :
    decodeCommand w = .ok i ↔ i.port = .wire ∧ encode i = w := by
  rw [decodeCommand_eq_ok]
  cases i <;> simp [Instr.port, encode, eq_comm]

@[simp] theorem wellFormed_iff {p : Port} {i : Instr} : WellFormed p i = true ↔ i.port = p := by
  simp [WellFormed]

/-- On either port the decoder is the encoder's inverse: it answers an instruction exactly for the word of
an instruction of that port. -/
theorem decode_eq_ok_iff {p : Port} {w : Word} {i : Instr} :
    decode p w = .ok i ↔ i.port = p ∧ encode i = w := by
  cases p with
  | host => exact decodeRequest_eq_ok_iff
  | wire => exact decodeCommand_eq_ok_iff

/-- Settles O1: the decoder is the encoder's inverse on each port. -/
theorem decodeUndoesEncode : Obligations.DecodeUndoesEncode :=
  fun _ _ hi => decode_eq_ok_iff.mpr ⟨wellFormed_iff.mp hi, rfl⟩

/-- Settles O2: the converse direction of the same inverse. -/
theorem decodedWordIsEncoding : Obligations.DecodedWordIsEncoding := by
  intro p w i h
  obtain ⟨hp, hw⟩ := decode_eq_ok_iff.mp h
  exact ⟨hw, wellFormed_iff.mpr hp⟩

/-- Settles O4: seven closed facts, computed. -/
theorem writtenWordsDecode : Obligations.WrittenWordsDecode := by
  unfold Obligations.WrittenWordsDecode
  decide

/-! ### The rows of the opcode table (R92) -/

/-- The word of every instruction matches its own row, put together from the row lemmas. -/
theorem encode_and_rowMask : ∀ i : Instr, encode i &&& rowMask i = rowMatch i
  | .init => Laws.TableRow.init
  | .measure => Laws.TableRow.measure
  | .crcClr => Laws.TableRow.crcClr
  | .crcByte b => Laws.TableRow.crcByte b
  | .getstate => Laws.TableRow.getstate
  | .cmdInit => Laws.TableRow.cmdInit
  | .cmdMeasure => Laws.TableRow.cmdMeasure

theorem opField_and_crcByteMask (w : Word) : opField (w &&& 0xFF00) = opField w :=
  BitVec.extractLsb'_and.trans BitVec.and_allOnes

theorem rsvField_and_crcByteMask (w : Word) : rsvField (w &&& 0xFF00) = rsvField w :=
  BitVec.extractLsb'_and.trans BitVec.and_allOnes

/-- The mask of CRC.BYTE's row fixes `OP` and `RSV` and leaves `ARG` free. -/
theorem encode_crcByte_of_match {w : Word} (h : w &&& 0xFF00 = 0x4000) :
    encode (.crcByte (argField w)) = w := by
  have hop : opField w = 4 := by rw [← opField_and_crcByteMask, h]; rfl
  have hrsv : rsvField w = 0 := by rw [← rsvField_and_crcByteMask, h]; rfl
  calc encode (.crcByte (argField w))
      _ = 4#4 ++ 0#4 ++ argField w := encode_crcByte _
      _ = opField w ++ rsvField w ++ argField w := by rw [hop, hrsv]; rfl
      _ = w := word_eq_fields w

/-- A word that matches a row of the host's format is a request: a full mask fixes the whole word. -/
theorem decodeRequest_of_match {w : Word} {i : Instr} (hi : i.port = .host)
    (h : w &&& rowMask i = rowMatch i) : ∃ j, decodeRequest w = .ok j := by
  have full : w &&& BitVec.allOnes 16 = w := BitVec.and_allOnes
  cases i with
  | init => exact ⟨.init, decodeRequest_eq_ok_iff.mpr ⟨rfl, h.symm.trans full⟩⟩
  | measure => exact ⟨.measure, decodeRequest_eq_ok_iff.mpr ⟨rfl, h.symm.trans full⟩⟩
  | crcClr => exact ⟨.crcClr, decodeRequest_eq_ok_iff.mpr ⟨rfl, h.symm.trans full⟩⟩
  | crcByte _ => exact ⟨_, decodeRequest_eq_ok_iff.mpr ⟨rfl, encode_crcByte_of_match h⟩⟩
  | getstate => exact ⟨.getstate, decodeRequest_eq_ok_iff.mpr ⟨rfl, h.symm.trans full⟩⟩
  | cmdInit => cases hi
  | cmdMeasure => cases hi

/-- Settles O3: a request matches its own row, and a word that matches a row is a request. -/
theorem requestsAreTableRows : Obligations.RequestsAreTableRows := by
  refine ⟨fun w => ⟨?_, ?_⟩, decodeRequest_error (e := .argNotZero) rfl,
    decodeRequest_error (e := .argNotZero) rfl⟩
  · rintro ⟨i, h⟩
    obtain ⟨hi, rfl⟩ := decodeRequest_eq_ok_iff.mp h
    exact ⟨i, wellFormed_iff.mpr hi, encode_and_rowMask i⟩
  · rintro ⟨i, hi, h⟩
    exact decodeRequest_of_match (wellFormed_iff.mp hi) h

end Sys2Proof

namespace Sys2Proof.Machine

/-! ### The response format (R96) -/

theorem Status.ofCode_code (st : Status) : Status.ofCode st.code = some st := by cases st <;> rfl

theorem Status.ofCode_unused {c : BitVec 4} (h : 5 ≤ c) : Status.ofCode c = none := by
  revert c
  decide

theorem Response.rsp36_status (r : Response) : r.rsp36.extractLsb' 32 4 = r.status.code :=
  BitVec.extractLsb'_append_eq_left

theorem Response.rsp36_data (r : Response) : r.rsp36.extractLsb' 0 32 = r.data :=
  BitVec.extractLsb'_append_eq_right

theorem Response.ofRsp36_rsp36 (r : Response) : Response.ofRsp36 r.rsp36 = some r := by
  simp [Response.ofRsp36, Response.rsp36_status, Response.rsp36_data, Status.ofCode_code]

/-- Settles O5: the form is status code and data put side by side, and only five codes name a status. -/
theorem responseFormat : Obligations.ResponseFormat := by
  refine ⟨fun r => ⟨r.rsp36_status, r.rsp36_data, r.ofRsp36_rsp36⟩, fun v h => ?_,
    rfl, rfl, rfl, rfl, rfl⟩
  simp [Response.ofRsp36, Status.ofCode_unused h]

/-! ### What the assembler emits (R102 to R104) -/

theorem port_of_mem_calcInstrs {bs : List Byte} {i : Instr} (h : i ∈ calcInstrs bs) :
    i.port = .host := by
  rcases List.mem_cons.mp h with rfl | h
  · rfl
  · obtain ⟨b, _, rfl⟩ := List.mem_map.mp h
    rfl

/-- The expansion of CRC.WORD is that of CRC.CALC over the two bytes of the word. -/
theorem wordInstrs_eq_calcInstrs (w : Word) : wordInstrs w = calcInstrs [hiByte w, loByte w] := rfl

/-- Every item but `.word` emits encodings of requests. -/
theorem AsmItem.words_are_encodings {item : AsmItem} (hi : ∀ v, item ≠ .word v) :
    ∃ is : List Instr, (∀ i ∈ is, i.port = .host) ∧ item.words = is.map encode := by
  cases item with
  | init => exact ⟨[.init], by simp [Instr.port], rfl⟩
  | measure => exact ⟨[.measure], by simp [Instr.port], rfl⟩
  | crcClr => exact ⟨[.crcClr], by simp [Instr.port], rfl⟩
  | crcByte b => exact ⟨[.crcByte (BitVec.ofNat 8 b)], by simp [Instr.port], rfl⟩
  | getstate => exact ⟨[.getstate], by simp [Instr.port], rfl⟩
  | word v => exact absurd rfl (hi v)
  | crcCalc bs => exact ⟨_, fun _ => port_of_mem_calcInstrs, rfl⟩
  | crcWord w =>
    exact ⟨calcInstrs [hiByte (.ofNat 16 w), loByte (.ofNat 16 w)],
      fun _ => port_of_mem_calcInstrs, rfl⟩

/-- Settles O19: what these items emit are encodings, and encodings decode. -/
theorem assembledWordsDecode : Obligations.AssembledWordsDecode := by
  intro item hi w hw
  obtain ⟨is, hport, hwords⟩ := AsmItem.words_are_encodings hi
  obtain ⟨i, hmem, rfl⟩ := List.mem_map.mp (hwords ▸ hw)
  exact ⟨i, decodeRequest_encode (hport i hmem)⟩

/-! ### What the pseudo-instructions compute (R103, R104) -/

/-- A sequence of CRC.BYTE requests runs through and folds its bytes into `crc_acc`. -/
theorem execAll_crcBytes (bs : List Byte) (s : State) :
    ∃ t, execAll (bs.map .crcByte) s = .next t ∧ t.crcAcc = bs.foldl crcStep s.crcAcc := by
  induction bs generalizing s with
  | nil => exact ⟨s, rfl, rfl⟩
  | cons b bs ih => exact ih _

/-- The expansion of CRC.CALC runs through, for any number of bytes: CRC.CLR sets `crc_acc` to the initial
value from which `crc8` folds. -/
theorem execAll_calcInstrs (bs : List Byte) (s : State) :
    ∃ t, execAll (calcInstrs bs) s = .next t ∧ t.crcAcc = crc8 bs :=
  execAll_crcBytes bs _

theorem groupOk_iff {hi lo c : Byte} : groupOk hi lo c = true ↔ c = crc8 [hi, lo] := by
  rw [groupOk, beq_iff_eq, eq_comm]

/-- Settles O18; CRC.WORD's group is valid for the `crc8` of its two bytes only. -/
theorem pseudoInstructionsComputeCrc : Obligations.PseudoInstructionsComputeCrc := by
  refine ⟨fun bs s _ => execAll_calcInstrs bs s, fun w s => ?_⟩
  obtain ⟨t, hrun, hcrc⟩ := execAll_calcInstrs [hiByte w, loByte w] s
  exact ⟨t, wordInstrs_eq_calcInstrs w ▸ hrun, fun c => hcrc ▸ groupOk_iff⟩

end Sys2Proof.Machine

/-! SUPPORT. Proofs about the host channel (30_encoding.md R94, R98): which instruction a step runs, what
a step can do on the channel, said once of the block's moves, and the statements that follow. -/

namespace Sys2Proof.Machine

/-! ### The instruction a step runs -/

theorem step_of_request {s : State} {w : Word} {i : Instr} (hl : s.resetLine = false)
    (hs : s.step = .idle) (hh : s.host.head? = some (.issue w)) (hi : decodeRequest w = .ok i) :
    step s = exec i s.taken := by
  obtain ⟨rest, hh⟩ := List.head?_eq_some_iff.mp hh
  have taken : s.taken = { s.sampleReset with host := rest } := by rw [State.taken, hh]; rfl
  rw [step_of_released hl, taken]
  exact stepBlock_of_request hs hh hi

theorem step_of_command {s : State} {i : Instr} (hl : s.resetLine = false)
    (hs : s.step = .cmdWrite) (hi : decodeCommand s.cmdBuf = .ok i) :
    step s = exec i s.sampleReset := by
  rw [step_of_released hl]
  simp [stepBlock, stepCommand, hs, hi]

/-- Settles O7, from the two places an instruction is fetched. -/
theorem stepRunsDecodedInstr : Obligations.StepRunsDecodedInstr :=
  ⟨fun _ _ _ => step_of_request, fun _ _ => step_of_command⟩

/-! ### What a step does on the host channel -/

/-- What a move of the block from `s` to `t` means to the host: one constructor for each way the host's
moves, the channel and the responses can go on, with the values of `step` it goes with. -/
inductive ChannelMove (s t : State) : Prop where
  /-- The block stays idle; no request is issued. -/
  | rests (before : s.step = .idle) (after : t.step = .idle)
      (host : issuesLeft s.host = issuesLeft t.host) (channel : t.channel = s.channel)
      (responses : t.responses = s.responses)
  /-- A request is issued and answered at once. -/
  | answers {w : Word} {r : Response} (before : s.step = .idle) (after : t.step = .idle)
      (host : s.host = .issue w :: t.host) (channel : t.channel = none)
      (responses : t.responses = r :: s.responses)
  /-- A request is issued and starts a sequence, which occupies the channel. -/
  | accepts {w v : Word} (before : s.step = .idle) (after : t.step ≠ .idle)
      (host : s.host = .issue w :: t.host) (channel : t.channel = some v)
      (responses : t.responses = s.responses)
  /-- The running sequence goes on. -/
  | runs (before : s.step ≠ .idle) (after : t.step ≠ .idle) (host : t.host = s.host)
      (channel : t.channel = s.channel) (responses : t.responses = s.responses)
  /-- The running sequence ends with the response to its request. -/
  | ends {r : Response} (before : s.step ≠ .idle) (after : t.step = .idle) (host : t.host = s.host)
      (channel : t.channel = none) (responses : t.responses = r :: s.responses)

theorem BlockMove.channelMove {s t : State} (h : BlockMove s t) : ChannelMove s t := by
  cases h with
  | quiet hs => exact .rests hs hs rfl rfl rfl
  | pause hs hh => exact .rests hs hs (by rw [hh]; rfl) rfl rfl
  | illegal hs hh => exact .answers hs rfl hh rfl rfl
  | initAccepted hs hh => exact .accepts hs (by simp) hh rfl rfl
  | initRefused hs hh => exact .answers hs rfl hh rfl rfl
  | measureAccepted hs hh => exact .accepts hs (by simp) hh rfl rfl
  | measureRefused hs hh => exact .answers hs rfl hh rfl rfl
  | crcClr hs hh => exact .answers hs rfl hh rfl rfl
  | crcByte hs hh => exact .answers hs rfl hh rfl rfl
  | getstate hs hh => exact .answers hs rfl hh rfl rfl
  | writeUnanswered hs => exact .runs (by simp [hs]) (by simp [hs]) rfl rfl rfl
  | writeFailed hs => exact .ends (by simp [hs]) rfl rfl rfl rfl
  | written hs => exact .runs (by simp [hs]) (by simp) rfl rfl rfl
  | ticked hs => exact .runs (by simp [hs]) (by simp [hs]) rfl rfl rfl
  | initDone hs => exact .ends (by simp [hs]) rfl rfl rfl rfl
  | measureWaited hs => exact .runs (by simp [hs]) (by simp) rfl rfl rfl
  | readUnanswered hs => exact .runs (by simp [hs]) (by simp [hs]) rfl rfl rfl
  | readFailed hs => exact .ends (by simp [hs]) rfl rfl rfl rfl
  | readWrongLength hs => exact .ends (by simp [hs]) rfl rfl rfl rfl
  | readDone hs => exact .runs (by simp [hs]) (by simp) rfl rfl rfl
  | groupWrong hs => exact .ends (by simp [hs]) rfl rfl rfl rfl
  | measured hs => exact .ends (by simp [hs]) rfl rfl rfl rfl

theorem step_channelMove {s t : State} (hl : s.resetLine = false) (h : step s = .next t) :
    ChannelMove s.sampleReset t :=
  (stepBlock_move (step_of_released hl ▸ h)).channelMove

/-- Settles O45: from a step other than IDLE a move lets the sequence run or ends it. -/
theorem busyChannelBlocksHost : Obligations.BusyChannelBlocksHost := by
  intro s t hs hl h
  cases step_channelMove hl h with
  | rests before => exact absurd before hs
  | answers before => exact absurd before hs
  | accepts before => exact absurd before hs
  | runs _ _ host channel responses => exact ⟨host, fun _ => ⟨responses, channel⟩⟩
  | ends _ after host => exact ⟨host, fun busy => absurd after busy⟩

/-! ### The count of requests over a run -/

/-- The part of `Legal` the count of requests rests on (R98): a request is outstanding exactly while a
sequence runs. -/
def State.ChannelFollowsStep (s : State) : Prop := s.channel = none ↔ s.step = .idle

theorem Legal.channelFollowsStep {s : State} (legal : Legal s) : s.ChannelFollowsStep := by
  constructor
  · intro empty
    by_contra hs
    obtain ⟨occupied, _⟩ := legal.busy hs
    simp [empty] at occupied
  · intro hs
    obtain ⟨empty, _⟩ := legal.idle hs
    exact empty

theorem ChannelMove.channelFollowsStep {s t : State} (h : ChannelMove s t)
    (hc : s.ChannelFollowsStep) : t.ChannelFollowsStep := by
  unfold State.ChannelFollowsStep at *
  cases h with
  | rests before after _ channel => rw [channel, hc, before, after]
  | answers _ after _ channel => simp [channel, after]
  | accepts _ after _ channel => simp [channel, after]
  | runs before after _ channel => simp [channel, hc, before, after]
  | ends _ after _ channel => simp [channel, after]

/-- A request that is issued is answered at once or becomes outstanding, and an outstanding one that is no
longer so has been answered. -/
theorem ChannelMove.requestCount_eq {s t : State} (h : ChannelMove s t)
    (hc : s.ChannelFollowsStep) : t.requestCount = s.requestCount := by
  unfold State.requestCount
  cases h with
  | rests _ _ host channel responses => rw [host, channel, responses]
  | answers before _ host channel responses =>
    simp only [host, channel, responses, hc.mpr before, issuesLeft, List.length_cons]
    omega
  | accepts before _ host channel responses =>
    simp [host, channel, responses, hc.mpr before, issuesLeft]
  | runs _ _ host channel responses => rw [host, channel, responses]
  | ends before _ host channel responses =>
    obtain ⟨w, occupied⟩ := Option.ne_none_iff_exists'.mp (mt hc.mp before)
    simp only [host, channel, responses, occupied, Option.toList, List.length_cons, List.length_nil]
    omega

theorem BlockMove.resets_eq {s t : State} (h : BlockMove s t) : t.resets = s.resets := by
  cases h <;> rfl

theorem step_undisturbed {s t : State} (hu : s.Undisturbed) (h : step s = .next t) :
    t.Undisturbed := by
  have move := stepBlock_move (step_of_released (State.resetLine_of_undisturbed hu) ▸ h)
  unfold State.Undisturbed
  rw [move.resets_eq]
  exact State.sampleReset_undisturbed hu

theorem requestCount_run {n : Nat} {s t : State} (hc : s.ChannelFollowsStep) (hu : s.Undisturbed)
    (h : Host.Core.run core n s = .next t) : t.requestCount = s.requestCount := by
  induction n generalizing s with
  | zero => cases h; rfl
  | succ n ih =>
    obtain ⟨u, first, rest⟩ := run_succ_next h
    have move := step_channelMove (State.resetLine_of_undisturbed hu) first
    calc t.requestCount
        _ = u.requestCount := ih (move.channelFollowsStep hc) (step_undisturbed hu first) rest
        _ = s.requestCount := move.requestCount_eq hc

/-- Settles O46, by induction on the run: no step without a reset changes the count. -/
theorem eachRequestAnsweredOnce : Obligations.EachRequestAnsweredOnce :=
  fun _ _ _ legal hu h => requestCount_run legal.channelFollowsStep hu h

end Sys2Proof.Machine

/-! SUPPORT. Proofs about the CRC-8 generator (40_crc.md): the algebra of `crcStep`, the two CRC requests,
and what a run makes of `crc_acc`. -/

namespace Sys2Proof.Machine

/-! ### `T` is linear over exclusive-or (R123 (c), (d)) -/

/-- `f` is linear over exclusive-or, the addition of GF(2). -/
def XorLinear (f : Byte → Byte) : Prop := ∀ x y, f (x ^^^ y) = f x ^^^ f y

theorem crcShift_xorLinear : XorLinear crcShift := by
  intro x y
  unfold crcShift
  rw [BitVec.getLsbD_xor, BitVec.shiftLeft_xor_distrib]
  cases x.getLsbD 7 <;> cases y.getLsbD 7
  · rfl
  · exact BitVec.xor_assoc _ _ _
  · simp only [Bool.xor_false, if_true, Bool.false_eq_true, if_false]
    ac_rfl
  · calc x <<< 1 ^^^ y <<< 1
        _ = x <<< 1 ^^^ y <<< 1 ^^^ (Config.crcPoly ^^^ Config.crcPoly) := by
          rw [BitVec.xor_self, BitVec.xor_zero]
        _ = (x <<< 1 ^^^ Config.crcPoly) ^^^ (y <<< 1 ^^^ Config.crcPoly) := by ac_rfl

theorem crcLoop_xorLinear (n : Nat) : XorLinear (crcLoop n) := by
  intro x y
  induction n generalizing x y with
  | zero => rfl
  | succ n ih => exact (congrArg (crcLoop n) (crcShift_xorLinear x y)).trans (ih _ _)

theorem crcT_eq_crcLoop : crcT = crcLoop 8 :=
  funext fun _ => congrArg (crcLoop 8) BitVec.zero_xor

theorem crcStep_eq_crcT (a b : Byte) : crcStep a b = crcT (a ^^^ b) := by
  rw [crcT_eq_crcLoop, crcStep]

theorem crcT_xorLinear : XorLinear crcT := crcT_eq_crcLoop ▸ crcLoop_xorLinear 8

/-! ### `T` vanishes at 0 only, so the checksum leaves residue 0 (R123 (e)) -/

theorem crcShift_getLsbD_zero (x : Byte) : (crcShift x).getLsbD 0 = x.getLsbD 7 := by
  unfold crcShift
  cases x.getLsbD 7 <;> simp [Config.crcPoly]

/-- The polynomial's lowest bit is set, so an iteration that gives 0 has shifted out no bit. -/
theorem crcShift_eq_zero {x : Byte} (h : crcShift x = 0) : x = 0 := by
  have high : x.getLsbD 7 = false := by rw [← crcShift_getLsbD_zero, h]; rfl
  have shifted : x <<< 1 = 0 := by rw [crcShift, high] at h; exact h
  apply BitVec.eq_of_getLsbD_eq
  intro k hk
  rcases Nat.lt_or_eq_of_le (Nat.le_of_lt_succ hk) with hk | rfl
  · calc x.getLsbD k
        _ = (x <<< 1).getLsbD (k + 1) := by rw [BitVec.getLsbD_shiftLeft]; simp [Nat.succ_lt_succ hk]
        _ = false := by rw [shifted]; exact BitVec.getLsbD_zero
        _ = _ := BitVec.getLsbD_zero.symm
  · exact high

theorem crcLoop_eq_zero {n : Nat} {x : Byte} (h : crcLoop n x = 0) : x = 0 := by
  induction n generalizing x with
  | zero => exact h
  | succ n ih => exact crcShift_eq_zero (ih h)

theorem crcStep_eq_zero_iff {a b : Byte} : crcStep a b = 0 ↔ a = b := by
  constructor
  · exact fun h => BitVec.xor_eq_zero_iff.mp (crcLoop_eq_zero h)
  · rintro rfl
    rw [crcStep, BitVec.xor_self]
    rfl

theorem crc8_append_singleton (s : List Byte) (b : Byte) : crc8 (s ++ [b]) = crcStep (crc8 s) b :=
  List.foldl_append

/-- The table is `T` written out; its 256 entries are compared by evaluation. -/
theorem crcTable_eq_map : crcTable = (List.range 256).map fun n => crcT (BitVec.ofNat 8 n) := by
  decide +kernel

theorem crcTable_getElem? (x : Byte) : crcTable[x.toNat]? = some (crcT x) := by
  simp [crcTable_eq_map, x.isLt]

/-- Settles O11: the residue of a checksum and the validity of a group are both `crcStep_eq_zero_iff`. -/
theorem crcProperties : Obligations.CrcProperties := by
  refine ⟨fun s => Nat.le_of_lt_succ (crc8 s).isLt, rfl, crcStep_eq_crcT, crcTable_getElem?,
    crcT_xorLinear, fun s => ?_, fun hi lo c => ?_⟩
  · rw [crc8_append_singleton]
    exact crcStep_eq_zero_iff.mpr rfl
  · rw [groupOk_iff, eq_comm]
    exact crcStep_eq_zero_iff.symm

/-! ### The parallel form (R128): a linear function is known from its basis images -/

theorem XorLinear.map_zero {f : Byte → Byte} (hf : XorLinear f) : f 0 = 0 :=
  (hf 0 0).trans BitVec.xor_self

/-- Bits `n` and up of `x` are 0. -/
def BitsBelow (n : Nat) (x : Byte) : Prop := ∀ k, n ≤ k → x.getLsbD k = false

theorem bitsBelow_eight (x : Byte) : BitsBelow 8 x := fun k => BitVec.getLsbD_of_ge x k

theorem BitsBelow.eq_zero {x : Byte} (h : BitsBelow 0 x) : x = 0 :=
  BitVec.eq_of_getLsbD_eq fun k _ => (h k k.zero_le).trans BitVec.getLsbD_zero.symm

/-- Below bit `n + 1`, a byte is below bit `n`, or it is so once basis byte `n` is taken out. -/
theorem BitsBelow.of_succ {n : Nat} {x : Byte} (h : BitsBelow (n + 1) x) :
    BitsBelow n x ∨ BitsBelow n (x ^^^ BitVec.twoPow 8 n) := by
  cases hx : x.getLsbD n with
  | false =>
    refine .inl fun k hk => ?_
    rcases Nat.eq_or_lt_of_le hk with rfl | hk
    · exact hx
    · exact h k hk
  | true =>
    refine .inr fun k hk => ?_
    rw [BitVec.getLsbD_xor, BitVec.getLsbD_twoPow]
    rcases Nat.eq_or_lt_of_le hk with rfl | hk
    · have : n < 8 := BitVec.lt_of_getLsbD hx
      simp [hx, this]
    · simp [h k hk, hk.ne]

theorem XorLinear.eq_of_bitsBelow {f g : Byte → Byte} (hf : XorLinear f) (hg : XorLinear g)
    {n : Nat} (basis : ∀ k < n, f (BitVec.twoPow 8 k) = g (BitVec.twoPow 8 k)) {x : Byte}
    (hx : BitsBelow n x) : f x = g x := by
  induction n generalizing x with
  | zero => rw [hx.eq_zero, hf.map_zero, hg.map_zero]
  | succ n ih =>
    have ih {y : Byte} (hy : BitsBelow n y) : f y = g y :=
      ih (fun k hk => basis k (Nat.lt_succ_of_lt hk)) hy
    rcases hx.of_succ with hx | hx
    · exact ih hx
    · apply (BitVec.xor_left_inj (f (BitVec.twoPow 8 n))).mp
      calc f x ^^^ f (BitVec.twoPow 8 n)
          _ = f (x ^^^ BitVec.twoPow 8 n) := (hf _ _).symm
          _ = g (x ^^^ BitVec.twoPow 8 n) := ih hx
          _ = g x ^^^ g (BitVec.twoPow 8 n) := hg _ _
          _ = g x ^^^ f (BitVec.twoPow 8 n) := by rw [basis n n.lt_succ_self]

/-- Each of the eight equations is an exclusive-or of bits of `x`. -/
theorem crcParallel_xorLinear : XorLinear crcParallel := by
  intro x y
  have comm : Std.Commutative xor := ⟨Bool.xor_comm⟩
  apply BitVec.eq_of_getLsbD_eq
  intro k hk
  rw [BitVec.getLsbD_xor]
  simp only [crcParallel, BitVec.getLsbD_ofBoolListLE, BitVec.getElem_xor]
  interval_cases k <;> simp only [List.getD_cons_zero, List.getD_cons_succ] <;> ac_rfl

theorem crcParallel_eq_crcT (x : Byte) : crcParallel x = crcT x :=
  crcParallel_xorLinear.eq_of_bitsBelow crcT_xorLinear (by decide) (bitsBelow_eight x)

/-- Settles O12: both sides are linear and agree on the eight basis bytes. -/
theorem parallelFormIsCrcStep : Obligations.ParallelFormIsCrcStep := by
  refine ⟨fun a b => ?_, rfl, rfl, rfl, rfl, rfl, rfl, rfl, rfl⟩
  rw [crcStepParallel, crcParallel_eq_crcT, crcStep_eq_crcT]

end Sys2Proof.Machine

namespace Sys2Proof

/-! ### Request words that do not decode (R95) -/

theorem decodeRequest_ne_ok_of_rsv {w : Word} (h : rsvField w ≠ 0) (i : Instr) :
    decodeRequest w ≠ .ok i := fun hi => h (decodeRequest_eq_ok hi).1

/-- Of the requests CRC.BYTE alone has an operand. -/
theorem decodeRequest_ne_ok_of_arg {w : Word} (hop : opField w ≠ 4) (h : argField w ≠ 0)
    (i : Instr) : decodeRequest w ≠ .ok i := by
  intro hi
  obtain ⟨_, row⟩ := decodeRequest_eq_ok hi
  rcases row with ⟨_, harg, _⟩ | ⟨_, harg, _⟩ | ⟨_, harg, _⟩ | ⟨hbyte, _⟩ | ⟨_, harg, _⟩
  · exact h harg
  · exact h harg
  · exact h harg
  · exact hop hbyte
  · exact h harg

end Sys2Proof

namespace Sys2Proof.Machine

/-! ### The two CRC requests (R125, R126) -/

/-- An answer to an idle block's request adds the response and leaves the rest. -/
theorem State.respond_of_idle {s : State} (hs : s.step = .idle) (hc : s.channel = none) (st : Status)
    (d : BitVec 32) : s.respond st d = { s with responses := ⟨st, d⟩ :: s.responses } := by
  rw [State.respond, ← hs, ← hc]

/-- An offered word that does not decode changes nothing but the answer (R205). -/
theorem step_of_offered_illegal {s : State} {w : Word} (ho : Offered w s)
    (hw : ∀ i, decodeRequest w ≠ .ok i) :
    step s = .next { s.taken with responses := ⟨.eIllegal, zext32 w⟩ :: s.responses } := by
  obtain ⟨hs, hc, hl, hh⟩ := ho
  obtain ⟨rest, hh⟩ := List.head?_eq_some_iff.mp hh
  have taken : { s.sampleReset with host := rest } = s.taken := by rw [State.taken, hh]; rfl
  calc step s
      _ = stepBlock s.sampleReset := step_of_released hl
      _ = .next (State.raiseIllegal w { s.sampleReset with host := rest }) :=
        stepBlock_of_illegal hs hh hw
      _ = .next (State.raiseIllegal w s.taken) := by rw [taken]
      _ = _ := congrArg _ (State.respond_of_idle (s := s.taken) hs hc _ _)

/-- Settles O14: CRC.CLR's word needs `RSV` and `ARG` 0. -/
theorem crcClrResult : Obligations.CrcClrResult := by
  refine ⟨fun s hs hc => ?_, rfl, fun s w hop hf ho => step_of_offered_illegal ho fun i => ?_⟩
  · exact congrArg _ (State.respond_of_idle (s := { s with crcAcc := Config.crcInit }) hs hc _ _)
  · rcases hf with hrsv | harg
    · exact decodeRequest_ne_ok_of_rsv hrsv i
    · exact decodeRequest_ne_ok_of_arg (by rw [hop]; decide) harg i

/-- Settles O15: every byte is an operand, and the word needs `RSV` 0. -/
theorem crcByteResult : Obligations.CrcByteResult := by
  refine ⟨fun s b hs hc => ?_, fun b => ?_, fun s w _ hrsv ho => ?_⟩
  · exact congrArg _
      (State.respond_of_idle (s := { s with crcAcc := crcStep s.crcAcc b }) hs hc _ _)
  · exact decodeRequest_encode (i := .crcByte b) rfl
  · exact step_of_offered_illegal ho (decodeRequest_ne_ok_of_rsv hrsv)

/-! ### What a run makes of `crc_acc` (R127) -/

theorem crcAfterMoves_append (acc : Byte) (ms ns : List HostMove) :
    crcAfterMoves acc (ms ++ ns) = crcAfterMoves (crcAfterMoves acc ms) ns := by
  induction ms generalizing acc with
  | nil => rfl
  | cons m ms ih => cases m <;> exact ih _

theorem crcAfterWord_of_crcClr {w : Word} (acc : Byte) (h : decodeRequest w = .ok .crcClr) :
    crcAfterWord acc w = Config.crcInit := by simp [crcAfterWord, h]

theorem crcAfterWord_of_crcByte {w : Word} {b : Byte} (acc : Byte)
    (h : decodeRequest w = .ok (.crcByte b)) : crcAfterWord acc w = crcStep acc b := by
  simp [crcAfterWord, h]

theorem crcAfterWord_of_other {w : Word} (acc : Byte) (hclr : decodeRequest w ≠ .ok .crcClr)
    (hbyte : ∀ b, decodeRequest w ≠ .ok (.crcByte b)) : crcAfterWord acc w = acc := by
  unfold crcAfterWord
  split
  · exact absurd ‹_› hclr
  · exact absurd ‹_› (hbyte _)
  · rfl

/-- From `s` to `t` the host issues `moves`, and `crc_acc` is what they make of it. -/
structure Streams (moves : List HostMove) (s t : State) : Prop where
  host : s.host = moves ++ t.host
  crcAcc : t.crcAcc = crcAfterMoves s.crcAcc moves

theorem Streams.trans {ms ns : List HostMove} {s t u : State} (h₁ : Streams ms s t)
    (h₂ : Streams ns t u) : Streams (ms ++ ns) s u where
  host := by rw [h₁.host, h₂.host, List.append_assoc]
  crcAcc := by rw [h₂.crcAcc, h₁.crcAcc, crcAfterMoves_append]

theorem streams_of_unchanged {s t : State} (host : t.host = s.host) (crcAcc : t.crcAcc = s.crcAcc) :
    ∃ moves, Streams moves s t := ⟨[], host.symm, crcAcc⟩

theorem streams_of_issue {s t : State} {w : Word} (host : s.host = .issue w :: t.host)
    (crcAcc : t.crcAcc = crcAfterWord s.crcAcc w) : ∃ moves, Streams moves s t :=
  ⟨[.issue w], host, crcAcc⟩

/-- A move of the block takes at most one move of the host, and only CRC.CLR and CRC.BYTE write
`crc_acc` (R34). -/
theorem BlockMove.streams {s t : State} (h : BlockMove s t) : ∃ moves, Streams moves s t := by
  cases h with
  | pause _ hh => exact ⟨[.pause], hh, rfl⟩
  | illegal _ hh hw =>
    exact streams_of_issue hh (crcAfterWord_of_other _ (hw _) fun _ => hw _).symm
  | crcClr _ hh hi => exact streams_of_issue hh (crcAfterWord_of_crcClr _ hi).symm
  | crcByte _ hh hi => exact streams_of_issue hh (crcAfterWord_of_crcByte _ hi).symm
  | initAccepted _ hh hi | initRefused _ hh hi | measureAccepted _ hh hi | measureRefused _ hh hi
  | getstate _ hh hi =>
    exact streams_of_issue hh (crcAfterWord_of_other _ (by simp [hi]) (by simp [hi])).symm
  | _ => exact streams_of_unchanged rfl rfl

theorem step_streams {s t : State} (hl : s.resetLine = false) (h : step s = .next t) :
    ∃ moves, Streams moves s t := by
  obtain ⟨moves, host, crcAcc⟩ := (stepBlock_move (step_of_released hl ▸ h)).streams
  exact ⟨moves, host, crcAcc⟩

theorem streams_run {n : Nat} {s t : State} (hu : s.Undisturbed)
    (h : Host.Core.run core n s = .next t) : ∃ moves, Streams moves s t := by
  induction n generalizing s with
  | zero => cases h; exact streams_of_unchanged rfl rfl
  | succ n ih =>
    obtain ⟨u, first, rest⟩ := run_succ_next h
    obtain ⟨ms, sooner⟩ := step_streams (State.resetLine_of_undisturbed hu) first
    obtain ⟨ns, later⟩ := ih (step_undisturbed hu first) rest
    exact ⟨ms ++ ns, sooner.trans later⟩

/-- Without a CRC.CLR the host's moves fold the bytes they feed into `crc_acc`. -/
theorem crcAfterMoves_eq_foldl (acc : Byte) (ms : List HostMove)
    (hclr : ∀ w, .issue w ∈ ms → decodeRequest w ≠ .ok .crcClr) :
    crcAfterMoves acc ms = (fedBytes ms).foldl crcStep acc := by
  induction ms generalizing acc with
  | nil => rfl
  | cons m ms ih =>
    have ih := fun acc => ih acc fun w hw => hclr w (List.mem_cons_of_mem _ hw)
    cases m with
    | pause => exact ih acc
    | issue w =>
      by_cases hbyte : ∃ b, decodeRequest w = .ok (.crcByte b)
      · obtain ⟨b, hb⟩ := hbyte
        simp [crcAfterMoves, fedBytes, crcAfterWord_of_crcByte acc hb, hb, ih]
      · have hbyte := not_exists.mp hbyte
        have same := crcAfterWord_of_other acc (hclr w List.mem_cons_self) hbyte
        simp [crcAfterMoves, fedBytes, same, ih]

/-- Settles O16, by induction on the run; the moves the host issued are the only ones that lead from its
first list to its last. -/
theorem crcStreamOverRuns : Obligations.CrcStreamOverRuns := by
  intro n s t hu h
  obtain ⟨moves, host, crcAcc⟩ := streams_run hu h
  refine ⟨⟨moves, host, crcAcc⟩, fun rest hh hclr => ?_⟩
  obtain rfl : moves = .issue 0x3000 :: rest := List.append_cancel_right (host.symm.trans hh)
  calc t.crcAcc
      _ = crcAfterMoves (crcAfterWord s.crcAcc 0x3000) rest := crcAcc
      _ = crcAfterMoves Config.crcInit rest := by rw [crcAfterWord_of_crcClr _ rfl]
      _ = crc8 (fedBytes rest) := crcAfterMoves_eq_foldl _ rest hclr

end Sys2Proof.Machine

/-! SUPPORT. Proofs about the two-wire bus (41_wire.md): the byte order of words, the two transactions and
what their outcomes do, `parseFrame`, and the errors the check of a group detects. -/

namespace Sys2Proof.Machine

/-! ### Byte order (R141, R142) -/

theorem toNat_hiByte (w : Word) : (hiByte w).toNat = w.toNat / 256 := by
  have := w.isLt
  rw [hiByte, BitVec.extractLsb'_toNat, Nat.shiftRight_eq_div_pow]
  omega

theorem toNat_loByte (w : Word) : (loByte w).toNat = w.toNat % 256 :=
  BitVec.extractLsb'_toNat 0 8 w

theorem toNat_wordOf (hi lo : Byte) : (wordOf hi lo).toNat = 256 * hi.toNat + lo.toNat := by
  rw [wordOf, BitVec.toNat_append, ← Nat.shiftLeft_add_eq_or_of_lt lo.isLt, Nat.shiftLeft_eq,
    Nat.mul_comm]

theorem wordOf_hiByte_loByte (w : Word) : wordOf (hiByte w) (loByte w) = w := by
  apply BitVec.eq_of_toNat_eq
  rw [toNat_wordOf, toNat_hiByte, toNat_loByte]
  omega

/-- Settles O6; the round trip follows from the numbers of the bytes. -/
theorem wordsAreBigEndian : Obligations.WordsAreBigEndian :=
  ⟨fun w => ⟨hiByte w, loByte w, rfl, toNat_hiByte w, toNat_loByte w⟩,
    fun hi lo => ⟨wordOf hi lo, rfl, toNat_wordOf hi lo⟩,
    fun w => congrArg some (wordOf_hiByte_loByte w)⟩

/-! ### The command write (R143) -/

theorem State.sendCommand_of_ok {s : State} {d : List Byte} (ho : s.outcome = .ok d) (w : Word) :
    s.sendCommand w =
      { s.afterWrite (encodeCommand w) true with step := .wait, waitCnt := 0 } := by
  rw [State.sendCommand, ho]
  rfl

theorem Op.afterError_eq (op : Op) : op.afterError = if op = .init then .failed else .ready := by
  cases op <;> rfl

theorem State.sendCommand_of_err {s : State} (ho : s.outcome = .err) (w : Word) :
    s.sendCommand w =
      { s.afterWrite (encodeCommand w) false with
        step := .idle, channel := none, state := (if s.curOp = .init then .failed else .ready),
        responses := ⟨.eTransport, 0⟩ :: s.responses } := by
  rw [State.sendCommand, ho, ← Op.afterError_eq]
  rfl

/-- Settles O25: both commands are a `sendCommand`, and their words encode to the bytes named. -/
theorem commandWriteResult : Obligations.CommandWriteResult :=
  ⟨fun _ _ ho => ⟨congrArg _ (State.sendCommand_of_ok ho Config.cmdInit),
      congrArg _ (State.sendCommand_of_ok ho Config.cmdMeasure)⟩,
    fun _ ho => ⟨congrArg _ (State.sendCommand_of_err ho Config.cmdInit),
      congrArg _ (State.sendCommand_of_err ho Config.cmdMeasure)⟩⟩

/-! ### The frame read (R145) -/

/-- Settles O31: each answer of the bus port is a move of the block at DATA_READ. -/
theorem frameReadResult : Obligations.FrameReadResult := by
  intro s hl hs hop
  rw [step_of_released hl]
  exact ⟨fun f ho => BlockMove.stepBlock_eq (.readDone hs hop ho),
    fun ho => BlockMove.stepBlock_eq (.readFailed hs hop ho),
    fun d ho hlen => BlockMove.stepBlock_eq (.readWrongLength hs hop ho hlen)⟩

/-! ### `parseFrame` (R149) -/

/-- Group `k` of `f` is the first whose check fails. -/
def FirstBadAt (f : List Byte) (k : Nat) : Prop :=
  groupAtOk f k = false ∧ ∀ j < k, groupAtOk f j = true

theorem FirstBadAt.eq {f : List Byte} {i k : Nat} (hi : FirstBadAt f i) (hk : FirstBadAt f k) :
    i = k := by
  obtain ⟨badi, goodi⟩ := hi
  obtain ⟨badk, goodk⟩ := hk
  rcases Nat.lt_trichotomy i k with hlt | heq | hlt
  · simp [goodk i hlt] at badi
  · exact heq
  · simp [goodi k hlt] at badk

/-- The words of the first `n` groups of `f`, in order. -/
def groupWords (n : Nat) (f : List Byte) : List Word :=
  (List.range n).map fun j => wordOf (f.getD (3 * j) 0) (f.getD (3 * j + 1) 0)

@[simp] theorem groupAtOk_cons_zero (hi lo c : Byte) (f : List Byte) :
    groupAtOk (hi :: lo :: c :: f) 0 = groupOk hi lo c := rfl

@[simp] theorem groupAtOk_cons_succ (hi lo c : Byte) (f : List Byte) (j : Nat) :
    groupAtOk (hi :: lo :: c :: f) (j + 1) = groupAtOk f j := rfl

theorem groupWords_cons (hi lo c : Byte) (n : Nat) (f : List Byte) :
    groupWords (n + 1) (hi :: lo :: c :: f) = wordOf hi lo :: groupWords n f := by
  rw [groupWords, List.range_succ_eq_map, List.map_cons, List.map_map]
  rfl

theorem forall_groupAtOk_cons {hi lo c : Byte} {f : List Byte} {n : Nat} :
    (∀ j < n + 1, groupAtOk (hi :: lo :: c :: f) j = true) ↔
      groupOk hi lo c = true ∧ ∀ j < n, groupAtOk f j = true := by
  simp only [Nat.forall_lt_succ_left, groupAtOk_cons_zero, groupAtOk_cons_succ]

theorem parseGroups_of_bad {hi lo c : Byte} (hg : groupOk hi lo c = false) (i : Nat)
    (f : List Byte) : parseGroups i (hi :: lo :: c :: f) = .bad i := by simp [parseGroups, hg]

theorem parseGroups_of_ok {hi lo c : Byte} (hg : groupOk hi lo c = true) (i : Nat) (f : List Byte) :
    parseGroups i (hi :: lo :: c :: f) = consWord (wordOf hi lo) (parseGroups (i + 1) f) := by
  simp [parseGroups, hg]

/-- Everything a parse of `n` whole groups, numbered from `i` on, can answer: the first bad group, or all
words. -/
theorem parseGroups_cases {n i : Nat} {f : List Byte} (hf : f.length = 3 * n) :
    (∃ k < n, FirstBadAt f k ∧ parseGroups i f = .bad (i + k)) ∨
    ((∀ j < n, groupAtOk f j = true) ∧ parseGroups i f = .ok (groupWords n f)) := by
  induction n generalizing i f with
  | zero =>
    obtain rfl := List.length_eq_zero_iff.mp hf
    exact .inr ⟨nofun, rfl⟩
  | succ n ih =>
    match f, hf with
    | hi :: lo :: c :: rest, hf =>
      have hrest : rest.length = 3 * n := by simp at hf; omega
      cases hg : groupOk hi lo c with
      | false => exact .inl ⟨0, n.succ_pos, ⟨hg, nofun⟩, parseGroups_of_bad hg i rest⟩
      | true =>
        rw [parseGroups_of_ok hg]
        rcases ih (i := i + 1) hrest with ⟨k, hk, ⟨bad, good⟩, hp⟩ | ⟨good, hp⟩ <;> rw [hp]
        · refine .inl ⟨k + 1, Nat.succ_lt_succ hk, ⟨bad, forall_groupAtOk_cons.mpr ⟨hg, good⟩⟩, ?_⟩
          rw [consWord, Nat.add_assoc, Nat.add_comm 1]
        · refine .inr ⟨forall_groupAtOk_cons.mpr ⟨hg, good⟩, ?_⟩
          rw [consWord, groupWords_cons]

theorem parseFrame_eq_parseGroups {n : Nat} {f : List Byte} (hn : 1 ≤ n) (hf : f.length = 3 * n) :
    parseFrame n f = parseGroups 0 f :=
  if_neg (not_or.mpr ⟨Nat.ne_of_gt hn, not_not.mpr hf⟩)

theorem parseFrame_cases {n : Nat} {f : List Byte} (hn : 1 ≤ n) (hf : f.length = 3 * n) :
    (∃ k < n, FirstBadAt f k ∧ parseFrame n f = .bad k) ∨
    ((∀ j < n, groupAtOk f j = true) ∧ parseFrame n f = .ok (groupWords n f)) := by
  rw [parseFrame_eq_parseGroups hn hf]
  simpa using parseGroups_cases (i := 0) hf

theorem parseFrame_eq_bad_iff {n : Nat} {f : List Byte} (hn : 1 ≤ n) (hf : f.length = 3 * n)
    (i : Nat) : parseFrame n f = .bad i ↔ i < n ∧ FirstBadAt f i := by
  rcases parseFrame_cases hn hf with ⟨k, hk, first, hp⟩ | ⟨good, hp⟩ <;> rw [hp]
  · constructor
    · rintro ⟨⟩
      exact ⟨hk, first⟩
    · rintro ⟨_, hi⟩
      rw [hi.eq first]
  · constructor
    · nofun
    · rintro ⟨hi, bad, _⟩
      simp [good i hi] at bad

theorem parseFrame_eq_ok_iff {n : Nat} {f : List Byte} (hn : 1 ≤ n) (hf : f.length = 3 * n)
    (ws : List Word) :
    parseFrame n f = .ok ws ↔ (∀ j < n, groupAtOk f j = true) ∧ ws = groupWords n f := by
  rcases parseFrame_cases hn hf with ⟨k, hk, ⟨bad, _⟩, hp⟩ | ⟨good, hp⟩ <;> rw [hp]
  · constructor
    · nofun
    · rintro ⟨good, _⟩
      simp [good k hk] at bad
  · constructor
    · rintro ⟨⟩
      exact ⟨good, rfl⟩
    · rintro ⟨_, rfl⟩
      rfl

/-- The check and the decode of a MEASURE, as one result. -/
def checkedFrame (f : Vector Byte 6) : FrameResult :=
  match firstBadGroup f with
  | some i => .bad i.toNat
  | none => .ok (frameWords f).toList

theorem parseFrame_two (f : Vector Byte 6) : parseFrame 2 f.toList = checkedFrame f := by
  obtain ⟨⟨l⟩, h⟩ := f
  match l, h with
  | [h0, l0, c0, h1, l1, c1], _ =>
    rw [parseFrame_eq_parseGroups (by omega) rfl]
    cases g0 : groupOk h0 l0 c0 with
    | false => simp [parseGroups_of_bad g0, checkedFrame, firstBadGroup, g0]
    | true =>
      cases g1 : groupOk h1 l1 c1 with
      | false =>
        simp [parseGroups_of_ok g0, parseGroups_of_bad g1, consWord, checkedFrame, firstBadGroup, g0,
          g1]
      | true =>
        simp [parseGroups_of_ok g0, parseGroups, consWord, checkedFrame, firstBadGroup, frameWords, g0,
          g1]

/-- Settles O34, from the two answers a parse has. -/
theorem parseFrameResult : Obligations.ParseFrameResult :=
  ⟨fun _ _ hn hf => ⟨parseFrame_eq_bad_iff hn hf, parseFrame_eq_ok_iff hn hf⟩, fun _ => rfl,
    parseFrame_two⟩

/-! ### The errors the check of a group detects (R150): those whose remainder is not 0 -/

/-- A group pattern as a polynomial over GF(2), its first bit the highest power, reduced modulo the
generator: each `crcT` multiplies by `x^8`. -/
def syndrome (e : BitVec 24) : Byte :=
  crcT (crcT (e.extractLsb' 16 8) ^^^ e.extractLsb' 8 8) ^^^ e.extractLsb' 0 8

theorem syndrome_xor (e e' : BitVec 24) : syndrome (e ^^^ e') = syndrome e ^^^ syndrome e' := by
  have comm : Std.Commutative (α := Byte) (· ^^^ ·) := ⟨BitVec.xor_comm⟩
  simp only [syndrome, BitVec.extractLsb'_xor, crcT_xorLinear _ _]
  ac_rfl

/-- The initial value adds the same constant to every checksum. -/
theorem crc8_pair (hi lo : Byte) :
    crc8 [hi, lo] = crcT (crcT hi ^^^ lo) ^^^ crcT (crcT Config.crcInit) := by
  calc crc8 [hi, lo]
    _ = crcT (crcT (Config.crcInit ^^^ hi) ^^^ lo) := by simp [crc8, crcStep_eq_crcT]
    _ = crcT (crcT Config.crcInit ^^^ (crcT hi ^^^ lo)) := by
      rw [crcT_xorLinear Config.crcInit, BitVec.xor_assoc]
    _ = _ := by rw [crcT_xorLinear (crcT Config.crcInit), BitVec.xor_comm]

theorem group24Ok_iff (g : BitVec 24) :
    group24Ok g = true ↔ syndrome g = crcT (crcT Config.crcInit) := by
  rw [group24Ok, groupOk_iff, crc8_pair, syndrome, ← BitVec.xor_right_inj (crcT _),
    ← BitVec.xor_assoc, BitVec.xor_self, BitVec.zero_xor]

/-- In a valid group an error is detected when its syndrome is not 0. -/
theorem group24Ok_xor_eq_false {g e : BitVec 24} (hg : group24Ok g = true) (he : syndrome e ≠ 0) :
    group24Ok (g ^^^ e) = false := by
  rw [← Bool.not_eq_true, group24Ok_iff, syndrome_xor, (group24Ok_iff g).mp hg]
  simpa using he

/-- The places of the one bits of a group pattern. -/
def oneBits (e : BitVec 24) : List Nat := (List.range 24).filter fun k => e.getLsbD k

theorem length_oneBits (e : BitVec 24) : (oneBits e).length = groupWeight e := rfl

theorem oneBits_nodup (e : BitVec 24) : (oneBits e).Nodup := List.nodup_range.filter _

theorem mem_oneBits {e : BitVec 24} {k : Nat} : k ∈ oneBits e ↔ e.getLsbD k = true := by
  simpa [oneBits] using fun h => BitVec.lt_of_getLsbD h

theorem lt_of_mem_oneBits {e : BitVec 24} {k : Nat} (h : k ∈ oneBits e) : k < 24 :=
  BitVec.lt_of_getLsbD (mem_oneBits.mp h)

/-- The pattern with a one at each place of a list. -/
def bitSum (ks : List Nat) : BitVec 24 := ks.foldr (fun k e => BitVec.twoPow 24 k ^^^ e) 0

theorem getLsbD_bitSum {ks : List Nat} (nodup : ks.Nodup) {j : Nat} (hj : j < 24) :
    (bitSum ks).getLsbD j = decide (j ∈ ks) := by
  induction ks with
  | nil => simp [bitSum]
  | cons k ks ih =>
    obtain ⟨notMem, nodup⟩ := List.nodup_cons.mp nodup
    have cons : bitSum (k :: ks) = BitVec.twoPow 24 k ^^^ bitSum ks := rfl
    rw [cons, BitVec.getLsbD_xor, BitVec.getLsbD_twoPow, ih nodup]
    by_cases hk : k = j
    · subst hk
      simp [hj, notMem]
    · simp [hk, Ne.symm hk]

theorem bitSum_oneBits (e : BitVec 24) : bitSum (oneBits e) = e := by
  apply BitVec.eq_of_getLsbD_eq
  intro j hj
  simp [getLsbD_bitSum (oneBits_nodup e) hj, mem_oneBits]

/-- Whether a byte has an odd number of one bits. -/
def oddWeight (x : Byte) : Bool :=
  x[0] ^^ x[1] ^^ x[2] ^^ x[3] ^^ x[4] ^^ x[5] ^^ x[6] ^^ x[7]

theorem oddWeight_xor (x y : Byte) : oddWeight (x ^^^ y) = (oddWeight x ^^ oddWeight y) := by
  have comm : Std.Commutative xor := ⟨Bool.xor_comm⟩
  simp only [oddWeight, BitVec.getElem_xor]
  ac_rfl

/-- The generator is a multiple of `x + 1`, so each single bit's syndrome has odd weight, as
the bit has. -/
theorem oddWeight_syndrome_bit : ∀ k < 24, oddWeight (syndrome (BitVec.twoPow 24 k)) = true := by
  decide +kernel

theorem oddWeight_syndrome_bitSum {ks : List Nat} (bound : ∀ k ∈ ks, k < 24) :
    oddWeight (syndrome (bitSum ks)) = ks.length.bodd := by
  induction ks with
  | nil => decide +kernel
  | cons k ks ih =>
    obtain ⟨hk, bound⟩ := List.forall_mem_cons.mp bound
    calc oddWeight (syndrome (bitSum (k :: ks)))
        _ = (oddWeight (syndrome (BitVec.twoPow 24 k)) ^^ oddWeight (syndrome (bitSum ks))) := by
          rw [← oddWeight_xor, ← syndrome_xor]; rfl
        _ = (k :: ks).length.bodd := by
          rw [oddWeight_syndrome_bit k hk, ih bound, List.length_cons, Nat.bodd_succ, Bool.true_xor]

theorem syndrome_ne_zero_of_odd {e : BitVec 24} (he : groupWeight e % 2 = 1) : syndrome e ≠ 0 := by
  have parity : oddWeight (syndrome e) = (groupWeight e).bodd := by
    rw [← length_oneBits, ← oddWeight_syndrome_bitSum fun _ => lt_of_mem_oneBits, bitSum_oneBits]
  intro h
  rw [Nat.mod_two_of_bodd, ← parity, h] at he
  exact absurd he (by decide)

/-- The order of `x` modulo the generator is at least 24, so the bits of a group have different
syndromes. -/
theorem syndrome_bits_nodup :
    ((List.range 24).map fun k => syndrome (BitVec.twoPow 24 k)).Nodup := by
  decide +kernel

theorem syndrome_ne_zero_of_two {e : BitVec 24} (he : groupWeight e = 2) : syndrome e ≠ 0 := by
  obtain ⟨i, j, hij⟩ := List.length_eq_two.mp ((length_oneBits e).trans he)
  have hi : i < 24 := lt_of_mem_oneBits (e := e) (by simp [hij])
  have hj : j < 24 := lt_of_mem_oneBits (e := e) (by simp [hij])
  have ne : i ≠ j := by simpa [hij] using oneBits_nodup e
  have sum : e = BitVec.twoPow 24 i ^^^ BitVec.twoPow 24 j := by
    rw [← bitSum_oneBits e, hij]
    simp [bitSum]
  rw [sum, syndrome_xor]
  intro h
  exact ne (List.inj_on_of_nodup_map syndrome_bits_nodup (List.mem_range.mpr hi)
    (List.mem_range.mpr hj) (BitVec.xor_eq_zero_iff.mp h))

/-- The syndrome of a byte `k` places up. -/
def burstSyndrome (k : Nat) (b : Byte) : Byte := syndrome (b.setWidth 24 <<< k)

theorem burstSyndrome_xorLinear (k : Nat) : XorLinear (burstSyndrome k) := by
  intro x y
  simp only [burstSyndrome, BitVec.setWidth_xor, BitVec.shiftLeft_xor_distrib, syndrome_xor]

theorem burstSyndrome_basis :
    ∀ k ≤ 16, ∀ j < 8, burstSyndrome k (BitVec.twoPow 8 j) = crcLoop k (BitVec.twoPow 8 j) := by
  decide +kernel

/-- The bits of a byte `k` places up go through `k` iterations of the CRC loop. -/
theorem burstSyndrome_eq_crcLoop {k : Nat} (hk : k ≤ 16) (b : Byte) :
    burstSyndrome k b = crcLoop k b :=
  (burstSyndrome_xorLinear k).eq_of_bitsBelow (crcLoop_xorLinear k) (burstSyndrome_basis k hk)
    (bitsBelow_eight b)

theorem burstSyndrome_ne_zero {k : Nat} (hk : k ≤ 16) {b : Byte} (hb : b ≠ 0) :
    burstSyndrome k b ≠ 0 := fun h => hb (crcLoop_eq_zero (burstSyndrome_eq_crcLoop hk b ▸ h))

/-- Settles O13: in each of the three cases the syndrome is not 0. -/
theorem groupErrorsDetected : Obligations.GroupErrorsDetected := by
  intro g e hg
  refine ⟨fun he => ?_, fun he => ?_, fun b k hb hk he => ?_⟩
  · exact group24Ok_xor_eq_false hg (syndrome_ne_zero_of_odd he)
  · exact group24Ok_xor_eq_false hg (syndrome_ne_zero_of_two he)
  · exact group24Ok_xor_eq_false hg (he ▸ burstSyndrome_ne_zero hk hb)

end Sys2Proof.Machine

/-! SUPPORT. Proofs about the sequencer (42_sequencer.md): the legal combinations of registers are kept, the
requests it accepts and refuses, its waits and endings, and whole sequences. -/

namespace Sys2Proof.Machine

/-! ### Every step keeps a state legal -/

/-- A state at IDLE is legal when the rules for IDLE hold. -/
theorem Legal.of_idle {t : State} (params : t.params.Legal) (counter : t.waitCnt < 2 ^ t.params.wCnt)
    (hs : t.step = .idle) (channel : t.channel = none)
    (state : t.state = .uninitialized ∨ t.state = .ready ∨ t.state = .failed) : Legal t where
  params := params
  idle _ := ⟨channel, state⟩
  busy busy := absurd hs busy
  measureOnly h := by simp [hs] at h
  waiting h := by simp [hs] at h
  counter := counter

/-- A state where a sequence runs is legal when the rules for a running sequence hold. -/
theorem Legal.of_busy {t : State} (params : t.params.Legal) (counter : t.waitCnt < 2 ^ t.params.wCnt)
    (hs : t.step ≠ .idle)
    (sequence : t.channel = some t.curOp.request ∧ t.state = t.curOp.running ∧
      t.cmdBuf = t.curOp.command)
    (measureOnly : t.step = .dataRead ∨ t.step = .check → t.curOp = .measure)
    (waiting : t.step = .wait → t.waitCnt < t.curOp.waitTicks t.params) : Legal t where
  params := params
  idle idle := absurd idle hs
  busy _ := sequence
  measureOnly := measureOnly
  waiting := waiting
  counter := counter

theorem Legal.sampleReset {s : State} (h : Legal s) : Legal s.sampleReset :=
  ⟨h.params, h.idle, h.busy, h.measureOnly, h.waiting, h.counter⟩

theorem Legal.applyReset {s : State} (h : Legal s) : Legal s.applyReset :=
  .of_idle h.params (Nat.two_pow_pos _) rfl rfl (.inl rfl)

theorem legal_accept {s : State} (params : s.params.Legal) (counter : s.waitCnt < 2 ^ s.params.wCnt)
    (op : Op) : Legal (s.accept op) :=
  .of_busy params counter (by simp) ⟨rfl, rfl, rfl⟩ (by simp) (by simp)

/-- The bound a running wait has not reached fits in the counter, so its next tick does (R39). -/
theorem Legal.tick_fits {s : State} (h : Legal s) (hs : s.step = .wait) :
    s.waitCnt + 1 < 2 ^ s.params.wCnt :=
  Nat.lt_of_le_of_lt (h.waiting hs) (s.curOp.waitTicks_fits h.params)

theorem Op.afterError_idle (op : Op) :
    op.afterError = .uninitialized ∨ op.afterError = .ready ∨ op.afterError = .failed := by
  cases op <;> simp [Op.afterError]

theorem BlockMove.legal {s t : State} (h : BlockMove s t) (legal : Legal s) : Legal t := by
  cases h with
  | quiet | writeUnanswered | readUnanswered => exact legal
  | pause hs =>
    obtain ⟨channel, state⟩ := legal.idle hs
    exact .of_idle legal.params legal.counter hs channel state
  | illegal hs | initRefused hs | measureRefused hs | crcClr hs | crcByte hs | getstate hs =>
    obtain ⟨_, state⟩ := legal.idle hs
    exact .of_idle legal.params legal.counter rfl rfl state
  | initAccepted | measureAccepted =>
    refine legal_accept ?_ ?_ _
    exacts [legal.params, legal.counter]
  | writeFailed => exact .of_idle legal.params legal.counter rfl rfl s.curOp.afterError_idle
  | written hs =>
    exact .of_busy legal.params (Nat.two_pow_pos _) (by simp) (legal.busy (by simp [hs])) (by simp)
      fun _ => s.curOp.waitTicks_pos legal.params
  | ticked hs hlt =>
    exact .of_busy legal.params (legal.tick_fits hs) (by simp [hs]) (legal.busy (by simp [hs]))
      legal.measureOnly fun _ => hlt
  | initDone hs => exact .of_idle legal.params (legal.tick_fits hs) rfl rfl (.inr (.inl rfl))
  | measureWaited hs _ hop =>
    exact .of_busy legal.params (legal.tick_fits hs) (by simp) (legal.busy (by simp [hs]))
      (fun _ => hop) (by simp)
  | readFailed | readWrongLength | groupWrong | measured =>
    exact .of_idle legal.params legal.counter rfl rfl (.inr (.inl rfl))
  | readDone hs hop =>
    exact .of_busy legal.params legal.counter (by simp) (legal.busy (by simp [hs])) (fun _ => hop)
      (by simp)

/-- Settles O36: sampling the reset line, the reset and every move of the block keep a state legal. -/
theorem legalKept : Obligations.LegalKept := by
  intro s t legal h
  rcases step_cases h with ⟨_, rfl⟩ | ⟨_, move⟩
  · exact legal.sampleReset.applyReset
  · exact move.legal legal.sampleReset

theorem Legal.step_eq_idle_iff {s : State} (legal : Legal s) :
    s.step = .idle ↔ s.state = .uninitialized ∨ s.state = .ready ∨ s.state = .failed := by
  constructor
  · intro hs
    obtain ⟨_, state⟩ := legal.idle hs
    exact state
  · intro state
    by_contra hs
    obtain ⟨_, running, _⟩ := legal.busy hs
    cases hop : s.curOp <;> simp [running, hop, Op.running] at state

theorem Legal.state_eq_running {s : State} {sp : Step} {op : Op} (legal : Legal s) (hs : s.step = sp)
    (busy : sp ≠ .idle) (hop : s.curOp = op) : s.state = op.running := by
  obtain ⟨_, running, _⟩ := legal.busy (hs ▸ busy)
  rw [running, hop]

/-! ### Requests at IDLE (R161, R164, R166, R170, R175) -/

/-- The request that starts each sequence. -/
def Op.instr : Op → Instr
  | .init => .init
  | .measure => .measure

/-- The state in which each sequence is accepted. -/
def Op.startState : Op → SeqState
  | .init => .uninitialized
  | .measure => .ready

theorem decodeRequest_request (op : Op) : decodeRequest op.request = .ok op.instr := by
  cases op <;> rfl

/-- INIT and MEASURE are one rule, told apart by the state each is accepted in. -/
theorem exec_instr (op : Op) (s : State) :
    exec op.instr s = .next (if s.state = op.startState then s.accept op else s.raiseState) := by
  cases op <;> rfl

theorem exec_of_accepted {op : Op} {s : State} (hq : s.state = op.startState) :
    exec op.instr s = .next (s.accept op) := by rw [exec_instr, if_pos hq]

theorem exec_of_refused {op : Op} {s : State} (hs : s.step = .idle) (hc : s.channel = none)
    (hq : s.state ≠ op.startState) :
    exec op.instr s =
      .next { s with responses := ⟨.eState, zext32 s.state.code⟩ :: s.responses } := by
  rw [exec_instr, if_neg hq]
  exact congrArg _ (State.respond_of_idle hs hc _ _)

theorem exec_getstate {s : State} (hs : s.step = .idle) (hc : s.channel = none) :
    exec .getstate s = .next { s with responses := ⟨.ok, zext32 s.state.code⟩ :: s.responses } :=
  congrArg _ (State.respond_of_idle hs hc _ _)

/-- Settles O20; GETSTATE's word needs `RSV` and `ARG` 0. -/
theorem getstateResult : Obligations.GetstateResult := by
  refine ⟨fun s => exec_getstate, rfl, fun s w hop hf ho => ?_, fun s legal hs => ?_⟩
  · refine step_of_offered_illegal ho fun i => ?_
    rcases hf with hrsv | harg
    · exact decodeRequest_ne_ok_of_rsv hrsv i
    · exact decodeRequest_ne_ok_of_arg (by rw [hop]; decide) harg i
  · rcases legal.step_eq_idle_iff.mp hs with hq | hq | hq <;> rw [hq] <;> decide

/-- Settles O21: each sequence in the state that accepts it. -/
theorem sequenceAccepted : Obligations.SequenceAccepted :=
  ⟨fun _ _ => exec_of_accepted (op := .init), fun _ _ => exec_of_accepted (op := .measure)⟩

/-- Settles O22: a legal state that runs a sequence is not at IDLE, where alone a host move is taken. -/
theorem initRefused : Obligations.InitRefused := by
  refine ⟨fun s hs hc hq => ?_, fun s t legal hq hl h => ?_⟩
  · exact exec_of_refused (op := .init) hs hc (by rcases hq with hq | hq <;> simp [hq, Op.startState])
  · have hs : s.step ≠ .idle := by
      rw [ne_eq, legal.step_eq_idle_iff]
      rcases hq with hq | hq <;> simp [hq]
    obtain ⟨host, _⟩ := busyChannelBlocksHost s t hs hl h
    exact host

/-- Settles O23: READY is neither of the two states. -/
theorem measureRefused : Obligations.MeasureRefused := fun _ hs hc hq =>
  exec_of_refused (op := .measure) hs hc (by rcases hq with hq | hq <;> simp [hq, Op.startState])

/-! ### The outcome of the command write (R162, R163, R167, R169 (a)) -/

theorem step_eq_sendCommand {s : State} {op : Op} (legal : Legal s) (hl : s.resetLine = false)
    (hs : s.step = .cmdWrite) (hop : s.curOp = op) :
    step s = .next (s.sampleReset.sendCommand op.command) := by
  obtain ⟨_, _, hcmd⟩ := legal.busy (by simp [hs])
  exact step_at_cmdWrite hl hs (hop ▸ hcmd)

theorem step_of_write_ok {s : State} {op : Op} {d : List Byte} (legal : Legal s)
    (hl : s.resetLine = false) (hs : s.step = .cmdWrite) (hop : s.curOp = op)
    (ho : s.outcome = .ok d) :
    step s = .next { s.sampleReset.afterWrite (encodeCommand op.command) true with
      step := .wait, waitCnt := 0 } :=
  (step_eq_sendCommand legal hl hs hop).trans
    (congrArg _ (State.sendCommand_of_ok (s := s.sampleReset) ho _))

theorem step_starts_wait {s : State} {op : Op} {d : List Byte} (legal : Legal s)
    (hl : s.resetLine = false) (hs : s.step = .cmdWrite) (hop : s.curOp = op)
    (ho : s.outcome = .ok d) :
    ∃ t, step s = .next t ∧ t.step = .wait ∧ t.state = op.running ∧ t.responses = s.responses :=
  ⟨_, step_of_write_ok legal hl hs hop ho, rfl, legal.state_eq_running hs (by decide) hop, rfl⟩

theorem step_of_write_err {s : State} {op : Op} (legal : Legal s) (hl : s.resetLine = false)
    (hs : s.step = .cmdWrite) (hop : s.curOp = op) (ho : s.outcome = .err) :
    step s = .next { s.sampleReset.afterWrite (encodeCommand op.command) false with
      state := op.afterError, step := .idle, channel := none,
      responses := ⟨.eTransport, 0⟩ :: s.responses } := by
  rw [step_eq_sendCommand legal hl hs hop, State.sendCommand_of_err (s := s.sampleReset) ho,
    ← Op.afterError_eq, State.sampleReset_curOp, hop]
  rfl

/-- Settles O26: the failed command write, for an INIT. -/
theorem initFailure : Obligations.InitFailure := fun _ legal hl hs hop ho =>
  step_of_write_err legal hl hs hop ho

/-! ### The wait (R162, R167, R241) -/

/-- When a wait reaches its bound, the least wait of its sequence lies between the command write and the
tick that is passing. -/
theorem elapsed_of_waited {s : State} (legal : Legal s) (timed : Timed s) (hs : s.step = .wait)
    (hle : s.curOp.waitTicks s.params ≤ s.waitCnt + 1) :
    ∃ tw rest, s.busLog = .write Config.devAddr (encodeCommand s.curOp.command) true tw :: rest ∧
      Elapsed s.params.tick s.curOp.minWait tw (s.clock + 1) := by
  obtain ⟨tw, rest, hclock, hlog⟩ := timed.waiting hs
  refine ⟨tw, rest, hlog, by omega, ?_⟩
  calc s.curOp.minWait
      _ ≤ s.curOp.waitTicks s.params * s.params.tick := s.curOp.minWait_le_ticks legal.params
      _ ≤ (s.clock + 1 - tw) * s.params.tick := Nat.mul_le_mul_right _ (by omega)

/-- A step at WAIT lets a tick pass, and ends the wait only when the least wait lies behind. -/
theorem step_of_waiting {s : State} (legal : Legal s) (timed : Timed s) (hl : s.resetLine = false)
    (hs : s.step = .wait) :
    step s = .next s.sampleReset.tick ∨
    (step s = .next s.sampleReset.tick.endWait ∧
      ∃ tw rest, s.busLog = .write Config.devAddr (encodeCommand s.curOp.command) true tw :: rest ∧
        Elapsed s.params.tick s.curOp.minWait tw (s.clock + 1)) := by
  rw [step_at_wait hl hs, State.waitTick]
  split
  · exact .inl rfl
  next hge => exact .inr ⟨rfl, elapsed_of_waited legal timed hs (Nat.le_of_not_lt hge)⟩

theorem State.endWait_of_init {s : State} (hop : s.curOp = .init) :
    s.endWait = State.respond .ok 0 { s with state := .ready } := by simp [State.endWait, hop]

theorem State.endWait_of_measure {s : State} (hop : s.curOp = .measure) :
    s.endWait = { s with step := .dataRead } := by simp [State.endWait, hop]

/-- Settles O28: the wait of an INIT ends the sequence. -/
theorem initWaitKept : Obligations.InitWaitKept := by
  refine ⟨fun _ _ => step_starts_wait, fun s legal timed hl hs hop => ?_⟩
  rcases step_of_waiting legal timed hl hs with h | ⟨h, elapsed⟩
  · exact ⟨_, h, rfl, .inl ⟨hs, legal.state_eq_running hs (by decide) hop, rfl⟩⟩
  · rw [hop] at elapsed
    rw [State.endWait_of_init (s := s.sampleReset.tick) hop] at h
    exact ⟨_, h, rfl, .inr ⟨rfl, rfl, rfl, elapsed⟩⟩

/-- Settles O29: the wait of a MEASURE ends in the read. -/
theorem measureWaitKept : Obligations.MeasureWaitKept := by
  refine ⟨fun _ _ => step_starts_wait, fun s legal timed hl hs hop => ?_⟩
  have running := legal.state_eq_running hs (by decide) hop
  rcases step_of_waiting legal timed hl hs with h | ⟨h, elapsed⟩
  · exact ⟨_, h, running, rfl, .inl hs⟩
  · rw [hop] at elapsed
    rw [State.endWait_of_measure (s := s.sampleReset.tick) hop] at h
    exact ⟨_, h, running, rfl, .inr ⟨rfl, elapsed⟩⟩

/-! ### The check and the endings of a MEASURE (R168, R169) -/

theorem firstBadGroup_eq_none {f : Vector Byte 6} (h0 : groupOk f[0] f[1] f[2] = true)
    (h1 : groupOk f[3] f[4] f[5] = true) : firstBadGroup f = none := by
  simp [firstBadGroup, h0, h1]

theorem firstBadGroup_eq_zero {f : Vector Byte 6} (h0 : groupOk f[0] f[1] f[2] = false) :
    firstBadGroup f = some 0 := by simp [firstBadGroup, h0]

theorem firstBadGroup_eq_one {f : Vector Byte 6} (h0 : groupOk f[0] f[1] f[2] = true)
    (h1 : groupOk f[3] f[4] f[5] = false) : firstBadGroup f = some 1 := by
  simp [firstBadGroup, h0, h1]

theorem step_of_goodFrame {s : State} (hl : s.resetLine = false) (hs : s.step = .check)
    (hop : s.curOp = .measure) (hb : firstBadGroup s.rxBuf = none) :
    step s = .next { s.sampleReset with
      words := frameWords s.rxBuf, state := .ready, step := .idle, channel := none,
      responses := ⟨.ok, (frameWords s.rxBuf)[0] ++ (frameWords s.rxBuf)[1]⟩ :: s.responses } := by
  rw [step_of_released hl]
  exact BlockMove.stepBlock_eq (.measured hs hop hb)

theorem step_of_badGroup {s : State} {i : BitVec 2} (hl : s.resetLine = false) (hs : s.step = .check)
    (hop : s.curOp = .measure) (hi : i = 0 ∨ i = 1) (hb : firstBadGroup s.rxBuf = some i) :
    step s = .next { s.sampleReset with
      state := .ready, step := .idle, channel := none,
      responses := ⟨.eIntegrity, zext32 i⟩ :: s.responses } := by
  rw [step_of_released hl]
  exact BlockMove.stepBlock_eq (.groupWrong hs hop hi hb)

/-- Settles O32: `DATA` is the two words side by side. -/
theorem measureSuccess : Obligations.MeasureSuccess := fun _ hl hs hop h0 h1 =>
  ⟨_, _, _, rfl, rfl, BitVec.extractLsb'_append_eq_left, BitVec.extractLsb'_append_eq_right,
    step_of_goodFrame hl hs hop (firstBadGroup_eq_none h0 h1)⟩

/-- Settles O33; the two ways the read fails are FrameReadResult's. -/
theorem measureFailures : Obligations.MeasureFailures := by
  refine ⟨fun s legal hl hs hop ho => ?_, fun s hl hs hop ho => ?_, fun s hl hs hop => ⟨?_, ?_⟩⟩
  · exact step_of_write_err legal hl hs hop ho
  · obtain ⟨_, failed, wrongLength⟩ := frameReadResult s hl hs hop
    rcases ho with ho | ⟨d, ho, hlen⟩
    · exact ⟨_, failed ho⟩
    · exact ⟨_, wrongLength d ho hlen⟩
  · exact fun h0 => step_of_badGroup hl hs hop (.inl rfl) (firstBadGroup_eq_zero h0)
  · exact fun h0 h1 => step_of_badGroup hl hs hop (.inr rfl) (firstBadGroup_eq_one h0 h1)

/-! ### The transitions of `state` and `step` (R160, R171, R176, R177) -/

theorem blockMove_of_step {s t : State} (hl : s.resetLine = false) (h : step s = .next t) :
    BlockMove s.sampleReset t := stepBlock_move (step_of_released hl ▸ h)

/-- Settles O47: the moves that end a sequence find `state` where that sequence runs. -/
theorem stateTransitions : Obligations.StateTransitions := by
  intro s t legal hl h
  cases blockMove_of_step hl h with
  | initAccepted _ _ _ hq => exact .inr (.inl ⟨hq, rfl⟩)
  | measureAccepted _ _ _ hq => exact .inr (.inr (.inr (.inl ⟨hq, rfl⟩)))
  | writeFailed hs =>
    cases hop : s.curOp with
    | init =>
      have running := legal.state_eq_running hs (by decide) hop
      exact .inr (.inr (.inl ⟨running, .inr (by simp [hop, Op.afterError])⟩))
    | measure =>
      have running := legal.state_eq_running hs (by decide) hop
      exact .inr (.inr (.inr (.inr ⟨running, by simp [hop, Op.afterError]⟩)))
  | initDone hs _ hop =>
    have running := legal.state_eq_running hs (by decide) hop
    exact .inr (.inr (.inl ⟨running, .inl rfl⟩))
  | readFailed hs hop | readWrongLength hs hop | groupWrong hs hop | measured hs hop =>
    have running := legal.state_eq_running hs (by decide) hop
    exact .inr (.inr (.inr (.inr ⟨running, rfl⟩)))
  | _ => exact .inl rfl

/-- Settles O48: each move stays at its value of `step` or is a row of the table. -/
theorem stepTransitions : Obligations.StepTransitions := by
  intro s t _ hl h
  cases blockMove_of_step hl h with
  | quiet | pause | writeUnanswered | ticked | readUnanswered => exact .inl rfl
  | illegal hs | initRefused hs | measureRefused hs | crcClr hs | crcByte hs | getstate hs =>
    exact .inl hs.symm
  | initAccepted hs | measureAccepted hs => exact .inr (.inl ⟨hs, rfl⟩)
  | writeFailed hs => exact .inr (.inr (.inl ⟨hs, .inr rfl⟩))
  | written hs => exact .inr (.inr (.inl ⟨hs, .inl rfl⟩))
  | initDone hs _ hop => exact .inr (.inr (.inr (.inl ⟨hs, hop, rfl⟩)))
  | measureWaited hs _ hop => exact .inr (.inr (.inr (.inr (.inl ⟨hs, hop, rfl⟩))))
  | readFailed hs hop | readWrongLength hs hop =>
    exact .inr (.inr (.inr (.inr (.inr (.inl ⟨hs, hop, .inr rfl⟩)))))
  | readDone hs hop => exact .inr (.inr (.inr (.inr (.inr (.inl ⟨hs, hop, .inl rfl⟩)))))
  | groupWrong hs hop | measured hs hop =>
    exact .inr (.inr (.inr (.inr (.inr (.inr ⟨hs, hop, rfl⟩)))))

/-- Settles O49: FAILED is the source of no transition of StateTransitions, and a legal FAILED state is at
IDLE. -/
theorem failedIsTerminal : Obligations.FailedIsTerminal := by
  refine ⟨fun s t legal hq hl h => ?_, fun s legal hq => ?_, fun s _ hl => ?_⟩
  · rcases stateTransitions s t legal hl h with same | ⟨source, _⟩ | ⟨source, _⟩ | ⟨source, _⟩ |
      ⟨source, _⟩
    · exact same.trans hq
    all_goals simp [hq] at source
  · have hs := legal.step_eq_idle_iff.mpr (.inr (.inr hq))
    obtain ⟨hc, _⟩ := legal.idle hs
    obtain ⟨crcClr, _⟩ := crcClrResult
    obtain ⟨crcByte, _⟩ := crcByteResult
    have code : zext32 s.state.code = 4 := by rw [hq]; rfl
    refine ⟨?_, ?_, ?_, crcClr s hs hc, fun b => crcByte s b hs hc⟩
    · exact code ▸ exec_of_refused (op := .init) hs hc (by simp [hq, Op.startState])
    · exact code ▸ exec_of_refused (op := .measure) hs hc (by simp [hq, Op.startState])
    · exact code ▸ exec_getstate hs hc
  · exact ⟨_, step_of_asserted hl, rfl⟩

/-! ### Whole sequences -/

theorem step_of_accepted {op : Op} {s : State} (offered : Offered op.request s)
    (hq : s.state = op.startState) : step s = .next (s.taken.accept op) := by
  obtain ⟨hs, _, hl, hh⟩ := offered
  rw [step_of_request hl hs hh (decodeRequest_request op)]
  exact exec_of_accepted (s := s.taken) hq

theorem run_undisturbed {n : Nat} {s t : State} (hu : s.Undisturbed)
    (h : Host.Core.run core n s = .next t) : t.Undisturbed := by
  induction n generalizing s with
  | zero => cases h; exact hu
  | succ n ih =>
    obtain ⟨u, first, rest⟩ := run_succ_next h
    exact ih (step_undisturbed hu first) rest

theorem resetLine_of_run {n : Nat} {s t : State} (hu : s.Undisturbed)
    (h : Host.Core.run core n s = .next t) : t.resetLine = false :=
  State.resetLine_of_undisturbed (run_undisturbed hu h)

/-- A run goes on with the step from its end. -/
theorem run_snoc {n : Nat} {s t u : State} (run : Host.Core.run core n s = .next t)
    (last : step t = .next u) : Host.Core.run core (n + 1) s = .next u :=
  (run_add run).trans (run_succ last)

/-- The first `n` ticks of a wait. -/
def State.waited (n : Nat) (s : State) : State :=
  { s with waitCnt := s.waitCnt + n, clock := s.clock + n, resets := s.resets.drop n }

theorem State.waited_succ (n : Nat) (s : State) :
    (s.waited n).sampleReset.tick = s.waited (n + 1) := by
  simp [State.waited, State.sampleReset, State.tick, Nat.add_assoc]

theorem run_of_waiting {s : State} {n : Nat} (hu : s.Undisturbed) (hs : s.step = .wait)
    (hn : s.waitCnt + n < s.curOp.waitTicks s.params) :
    Host.Core.run core n s = .next (s.waited n) := by
  induction n with
  | zero => rfl
  | succ n ih =>
    have run := ih (Nat.lt_of_succ_lt hn)
    calc Host.Core.run core (n + 1) s
        _ = .next (s.waited n).sampleReset.waitTick :=
          run_snoc run (step_at_wait (resetLine_of_run hu run) hs)
        _ = .next (s.waited n).sampleReset.tick := congrArg _ (if_pos hn)
        _ = .next (s.waited (n + 1)) := by rw [State.waited_succ]

/-- A whole wait, from its start to its end. -/
theorem run_wait {s : State} (hu : s.Undisturbed) (hs : s.step = .wait) (h0 : s.waitCnt = 0)
    (hpos : 0 < s.curOp.waitTicks s.params) :
    Host.Core.run core (s.curOp.waitTicks s.params) s =
      .next (s.waited (s.curOp.waitTicks s.params)).endWait := by
  obtain ⟨n, hn⟩ := Nat.exists_eq_add_one.mpr hpos
  have run : Host.Core.run core n s = .next (s.waited n) := run_of_waiting hu hs (by omega)
  have bound : ¬ s.waitCnt + n + 1 < s.curOp.waitTicks s.params := by omega
  rw [hn]
  calc Host.Core.run core (n + 1) s
      _ = .next (s.waited n).sampleReset.waitTick :=
        run_snoc run (step_at_wait (resetLine_of_run hu run) hs)
      _ = .next (s.waited n).sampleReset.tick.endWait := congrArg _ (if_neg bound)
      _ = .next (s.waited (n + 1)).endWait := by rw [State.waited_succ]

/-- `s` after the acceptance of `op` and its command write, answered `Ok`. -/
def State.started (op : Op) (s : State) : State :=
  { (s.taken.accept op).sampleReset.afterWrite (encodeCommand op.command) true with
    step := .wait, waitCnt := 0 }

section Started

variable {s : State} {op : Op} (legal : Legal s) (hu : s.Undisturbed)
  (offered : Offered op.request s) (hq : s.state = op.startState)

include legal hu offered hq

theorem run_of_write_ok {d : List Byte} (ho : s.outcome = .ok d) :
    Host.Core.run core 2 s = .next (s.started op) := by
  have accepted := step_of_accepted offered hq
  have line := State.resetLine_of_undisturbed (step_undisturbed hu accepted)
  have written := step_of_write_ok (legalKept s _ legal accepted) line rfl rfl ho
  exact (run_succ accepted).trans (run_succ written)

theorem run_of_write_err (ho : s.outcome = .err) :
    Host.Core.run core 2 s =
      .next { (s.taken.accept op).sampleReset.afterWrite (encodeCommand op.command) false with
        state := op.afterError, step := .idle, channel := none,
        responses := ⟨.eTransport, 0⟩ :: s.responses } := by
  have accepted := step_of_accepted offered hq
  have line := State.resetLine_of_undisturbed (step_undisturbed hu accepted)
  have written := step_of_write_err (legalKept s _ legal accepted) line rfl rfl ho
  exact (run_succ accepted).trans (run_succ written)

/-- A sequence from its request to the end of its wait. -/
theorem run_through_wait {d : List Byte} (ho : s.outcome = .ok d) :
    Host.Core.run core (2 + op.waitTicks s.params) s =
      .next ((s.started op).waited (op.waitTicks s.params)).endWait := by
  have started := run_of_write_ok legal hu offered hq ho
  rw [run_add started]
  exact run_wait (run_undisturbed hu started) rfl rfl (op.waitTicks_pos legal.params)

end Started

theorem drop_tail_tail {α : Type} (l : List α) (n : Nat) : l.tail.tail.drop n = l.drop (2 + n) := by
  rw [List.drop_tail, List.drop_tail, Nat.add_comm 2]

theorem State.started_waited (op : Op) (n : Nat) (s : State) :
    (s.started op).waited n = { s.afterWrite (encodeCommand op.command) true with
      host := s.host.tail, resets := s.resets.drop (2 + n), state := op.running, step := .wait,
      curOp := op, cmdBuf := op.command, channel := some op.request, waitCnt := n,
      clock := s.clock + n } := by
  unfold State.started State.waited
  rw [← drop_tail_tail, Nat.zero_add]
  rfl

/-- Settles O51: both endings follow from the runs of the shared part of the two sequences. -/
theorem initSequence : Obligations.InitSequence := by
  refine fun s legal hu offered hq => ⟨fun d ho => ?_, fun ho => ?_⟩
  · rw [run_through_wait (op := .init) legal hu offered hq ho, State.started_waited,
      State.endWait_of_init rfl]
    rfl
  · rw [run_of_write_err (op := .init) legal hu offered hq ho,
      ← drop_tail_tail s.resets 0]
    rfl

/-- Everything a check can do, in terms of `parseFrame`. -/
theorem State.checkFrame_parse (s : State) :
    (∃ i, parseFrame 2 s.rxBuf.toList = .bad i ∧
      s.checkFrame = s.raise .eIntegrity (BitVec.ofNat 32 i) .ready) ∨
    (∃ w0 w1, parseFrame 2 s.rxBuf.toList = .ok [w0, w1] ∧
      s.checkFrame = State.respond .ok (w0 ++ w1) { s with words := #v[w0, w1], state := .ready }) := by
  rw [parseFrame_two, checkedFrame]
  rcases s.checkFrame_cases with ⟨i, _, hb, h⟩ | ⟨hb, h⟩ <;> rw [hb, h]
  · exact .inl ⟨i.toNat, rfl, by rw [BitVec.ofNat_toNat]; rfl⟩
  · exact .inr ⟨_, _, rfl, rfl⟩

/-- `s` after an accepted MEASURE, its command write, its wait and a read that gave the frame `f`. -/
def State.frameReceived (f : Vector Byte 6) (s : State) : State :=
  { ((s.started .measure).waited (Op.measure.waitTicks s.params)).endWait.sampleReset.afterRead
      (some f.toList) with rxBuf := f, step := .check }

theorem run_to_check {s : State} {d : List Byte} {f : Vector Byte 6} {rest : List BusOutcome}
    (legal : Legal s) (hu : s.Undisturbed) (offered : Offered 0x2000 s) (hq : s.state = .ready)
    (hbus : s.bus = .ok d :: .ok f.toList :: rest) :
    Host.Core.run core (2 + Op.measure.waitTicks s.params + 1) s = .next (s.frameReceived f) := by
  have waited := run_through_wait (op := .measure) legal hu offered hq (State.outcome_cons hbus)
  obtain ⟨sixBytes, _, _⟩ := frameReadResult _ (resetLine_of_run hu waited) rfl rfl
  exact run_snoc waited (sixBytes f (State.outcome_cons (congrArg List.tail hbus)))

/-- Settles O52: the block stands at CHECK with the frame, and the last step is the check. -/
theorem measureSequence : Obligations.MeasureSequence := by
  intro s d f rest legal hu offered hq hbus
  have received := run_to_check legal hu offered hq hbus
  have count : 4 + Op.measure.waitTicks s.params = 2 + Op.measure.waitTicks s.params + 1 + 1 := by
    omega
  have run : Host.Core.run core (4 + Op.measure.waitTicks s.params) s =
      .next (s.frameReceived f).sampleReset.checkFrame :=
    count ▸ run_snoc received (step_at_check (resetLine_of_run hu received) rfl rfl)
  have bus : s.bus.tail.tail = rest := by rw [hbus]; rfl
  refine ⟨_, run, ?_⟩
  rcases (s.frameReceived f).sampleReset.checkFrame_parse with ⟨i, hp, h⟩ | ⟨w0, w1, hp, h⟩
  · replace hp : parseFrame 2 f.toList = .bad i := hp
    rw [h, hp]
    exact ⟨rfl, rfl, rfl, rfl, rfl, bus, rfl, rfl, rfl, rfl⟩
  · replace hp : parseFrame 2 f.toList = .ok [w0, w1] := hp
    rw [h, hp]
    exact ⟨rfl, rfl, rfl, rfl, rfl, bus, rfl, rfl, rfl, rfl⟩

end Sys2Proof.Machine

/-! SUPPORT. Proofs about the exceptions (60_exceptions.md): the word that does not decode, the transaction
that is never answered, and what raises an error and what the error leaves, said once of the block's
moves. -/

namespace Sys2Proof.Machine

/-! ### A word that does not decode (R205) -/

/-- Settles O24: a word that decodes is the encoding of a request. -/
theorem illegalWordRefused : Obligations.IllegalWordRefused := by
  intro s w offered hw
  refine step_of_offered_illegal offered fun i hi => ?_
  obtain ⟨hport, henc⟩ := encode_of_decodeRequest hi
  exact hw i (wellFormed_iff.mpr hport) henc

/-! ### A transaction whose outcome never comes (R207) -/

theorem State.sendCommand_of_never {s : State} (ho : s.outcome = .never) (w : Word) :
    s.sendCommand w = s := by
  rw [State.sendCommand, ho]
  rfl

theorem State.readData_of_never {s : State} (ho : s.outcome = .never) : s.readData = s := by
  rw [State.readData, ho]
  rfl

/-- Settles O27: the command write and the frame read both stand; the registers of a legal state say which
command is written, and that only a MEASURE reads. -/
theorem unansweredTransactionStands : Obligations.UnansweredTransactionStands := by
  refine ⟨fun s ho => ⟨?_, ?_⟩, fun s legal hl hs ho => ?_⟩
  · exact congrArg _ (State.sendCommand_of_never ho Config.cmdInit)
  · exact congrArg _ (State.sendCommand_of_never ho Config.cmdMeasure)
  · rcases hs with hs | hs
    · rw [step_eq_sendCommand legal hl hs rfl, State.sendCommand_of_never (s := s.sampleReset) ho]
    · rw [step_at_dataRead hl hs (legal.measureOnly (.inl hs)),
        State.readData_of_never (s := s.sampleReset) ho]

/-! ### What raises an error, and what the error leaves (R201, R202) -/

/-- The registers that no error changes (R201): all but `state` and `step`. -/
def State.errorKept (s : State) : Byte × Op × Word × Vector Byte 6 × Nat × Vector Word 2 :=
  (s.crcAcc, s.curOp, s.cmdBuf, s.rxBuf, s.waitCnt, s.words)

/-- The block raises the error `r` in `s`, and the raising rule names `q` as the `state` it leaves: one
constructor for each rule that raises. -/
inductive ErrorCause (s : State) : Response → SeqState → Prop where
  /-- A word that does not decode (R205). -/
  | illegalWord {w : Word} (offered : s.host.head? = some (.issue w))
      (illegal : ∀ i, decodeRequest w ≠ .ok i) : ErrorCause s ⟨.eIllegal, zext32 w⟩ s.state
  /-- A request that `state` does not admit (R204). -/
  | wrongState (idle : s.step = .idle) : ErrorCause s ⟨.eState, zext32 s.state.code⟩ s.state
  /-- A command write that fails (42_sequencer.md R163, R169 (a)). -/
  | failedWrite (writing : s.step = .cmdWrite) : ErrorCause s ⟨.eTransport, 0⟩ s.curOp.afterError
  /-- A frame read that fails or has a wrong length (R169 (b)). -/
  | failedRead (reading : s.step = .dataRead) (measure : s.curOp = .measure) :
      ErrorCause s ⟨.eTransport, 1⟩ .ready
  /-- A group whose checksum is wrong (R169 (c)). -/
  | wrongGroup {i : BitVec 2} (measure : s.curOp = .measure) (index : i = 0 ∨ i = 1)
      (first : firstBadGroup s.rxBuf = some i) : ErrorCause s ⟨.eIntegrity, zext32 i⟩ .ready

/-- What a move of the block from `s` to `t` answers: nothing, OK, or an error. -/
inductive Answer (s t : State) : Prop where
  | silent (responses : t.responses = s.responses)
  | ok {d : BitVec 32} (responses : t.responses = ⟨.ok, d⟩ :: s.responses)
  | error {r : Response} (responses : t.responses = r :: s.responses) (idle : t.step = .idle)
      (channel : t.channel = none) (kept : t.errorKept = s.errorKept)
      (cause : ErrorCause s r t.state)

theorem BlockMove.answer {s t : State} (h : BlockMove s t) : Answer s t := by
  cases h with
  | illegal _ hh hw => exact .error rfl rfl rfl rfl (.illegalWord (by rw [hh]; rfl) hw)
  | initRefused hs | measureRefused hs => exact .error rfl rfl rfl rfl (.wrongState hs)
  | writeFailed hs => exact .error rfl rfl rfl rfl (.failedWrite hs)
  | readFailed hs hop | readWrongLength hs hop =>
    exact .error rfl rfl rfl rfl (.failedRead hs hop)
  | groupWrong _ hop hi hb => exact .error rfl rfl rfl rfl (.wrongGroup hop hi hb)
  | crcClr | crcByte | getstate | initDone | measured => exact .ok rfl
  | quiet | pause | initAccepted | measureAccepted | writeUnanswered | written | ticked
  | measureWaited | readUnanswered | readDone => exact .silent rfl

/-! ### The data of each class (R97, R202) -/

/-- In a legal state every cause gives `DATA` a value of its class; E_STATE is raised at IDLE only, where
`state` is one of the three that GETSTATE can answer (42_sequencer.md R173). -/
theorem ErrorCause.legal_response {s : State} {r : Response} {q : SeqState} (h : ErrorCause s r q)
    (legal : Legal s) : r.legal := by
  cases h with
  | illegalWord _ illegal => exact ⟨_, rfl, illegal⟩
  | wrongState idle =>
    obtain ⟨_, _, _, codes⟩ := getstateResult
    exact codes s legal idle
  | failedWrite => exact .inl rfl
  | failedRead => exact .inr rfl
  | wrongGroup _ index =>
    rcases index with rfl | rfl
    · exact .inl rfl
    · exact .inr rfl

theorem responsesLegal_of_cons {s t : State} {r : Response} (hs : ResponsesLegal s)
    (responses : t.responses = r :: s.responses) (hr : r.legal) : ResponsesLegal t := by
  unfold ResponsesLegal
  rw [responses]
  exact List.forall_mem_cons.mpr ⟨hr, hs⟩

/-- Settles O44: a reset answers nothing, and what a move of the block answers is legal. -/
theorem errorDataLegal : Obligations.ErrorDataLegal := by
  intro s t legal hs h
  rcases step_cases h with ⟨_, rfl⟩ | ⟨_, move⟩
  · exact hs
  · cases move.answer with
    | silent responses => exact fun r hr => hs r (responses ▸ hr)
    | ok responses => exact responsesLegal_of_cons hs responses trivial
    | error responses _ _ _ cause =>
      exact responsesLegal_of_cons hs responses (cause.legal_response legal.sampleReset)

section ErrorCause

variable {s : State} {r : Response} {q : SeqState}

theorem ErrorCause.after_eq (h : ErrorCause s r q) :
    q = if r.status = .eState ∨ r.status = .eIllegal then s.state
      else if s.curOp = .init then .failed else .ready := by
  cases h with
  | illegalWord | wrongState => simp
  | failedWrite => simp [Op.afterError_eq]
  | failedRead _ measure | wrongGroup measure => simp [measure]

theorem ErrorCause.transport_data (h : ErrorCause s r q) (hr : r.status = .eTransport) :
    r.data = if s.step = .cmdWrite then 0 else 1 := by
  cases h with
  | failedWrite writing => simp [writing]
  | failedRead reading => simp [reading]
  | illegalWord | wrongState | wrongGroup => cases hr

theorem ErrorCause.integrity_data (h : ErrorCause s r q) (hr : r.status = .eIntegrity) :
    ∃ i, firstBadGroup s.rxBuf = some i ∧ r.data = zext32 i := by
  cases h with
  | wrongGroup _ _ first => exact ⟨_, first, rfl⟩
  | illegalWord | wrongState | failedWrite | failedRead => cases hr

theorem ErrorCause.state_data (h : ErrorCause s r q) (hr : r.status = .eState) :
    r.data = zext32 s.state.code := by
  cases h with
  | wrongState => rfl
  | illegalWord | failedWrite | failedRead | wrongGroup => cases hr

theorem ErrorCause.illegal_data (h : ErrorCause s r q) (hr : r.status = .eIllegal) :
    ∃ w, s.host.head? = some (.issue w) ∧ r.data = zext32 w := by
  cases h with
  | illegalWord offered => exact ⟨_, offered, rfl⟩
  | wrongState | failedWrite | failedRead | wrongGroup => cases hr

end ErrorCause

/-- Settles O50: a response that is no OK is a move's error, and the error's cause decides the rest. -/
theorem errorPath : Obligations.ErrorPath := by
  intro s t r _ hl h hr hne
  cases (blockMove_of_step hl h).answer with
  | silent responses => exact absurd (hr.symm.trans responses) (List.cons_ne_self r _)
  | ok responses =>
    obtain ⟨rfl, _⟩ := List.cons.inj (hr.symm.trans responses)
    exact absurd rfl hne
  | error responses idle channel kept cause =>
    obtain ⟨rfl, _⟩ := List.cons.inj (hr.symm.trans responses)
    obtain ⟨crcAcc, curOp, cmdBuf, rxBuf, waitCnt, words⟩ := by
      simpa only [State.errorKept, Prod.mk.injEq] using kept
    exact ⟨idle, channel, cause.after_eq, crcAcc, curOp, cmdBuf, rxBuf, waitCnt, words,
      cause.transport_data, cause.integrity_data, cause.state_data, cause.illegal_data⟩

end Sys2Proof.Machine

/-! SUPPORT. Proofs about reset and time (70_reset_and_hazards.md): what a reset leaves, the bound of a wait,
and the two invariants of the bus history in time, the one the block keeps by itself and the one it
keeps with a dutiful host. -/

namespace Sys2Proof.Machine

/-! ### Time and the bus history -/

theorem Elapsed.weaken {tick gap gap' t t' now now' : Nat} (h : Elapsed tick gap t now)
    (hgap : gap' ≤ gap) (ht : t' ≤ t) (hnow : now ≤ now') : Elapsed tick gap' t' now' := by
  obtain ⟨past, long⟩ := h
  refine ⟨by omega, ?_⟩
  calc gap'
      _ ≤ (now - t) * tick := hgap.trans long
      _ ≤ (now' - t') * tick := Nat.mul_le_mul_right _ (by omega)

theorem Elapsed.later {tick gap t now now' : Nat} (h : Elapsed tick gap t now) (hnow : now ≤ now') :
    Elapsed tick gap t now' := h.weaken le_rfl le_rfl hnow

theorem NotAfter.later {now now' : Nat} {log : List BusEvent} (h : NotAfter now log)
    (hnow : now ≤ now') : NotAfter now' log := by
  cases log with
  | nil => trivial
  | cons e rest => exact h.trans hnow

theorem GapPassed.later {tick now now' : Nat} {log : List BusEvent} (h : GapPassed tick now log)
    (hnow : now ≤ now') : GapPassed tick now' log := by
  cases log with
  | nil => trivial
  | cons e rest => exact Elapsed.later h hnow

theorem PeerReady.later {tick now now' : Nat} {log : List BusEvent} (h : PeerReady tick now log)
    (hnow : now ≤ now') : PeerReady tick now' log :=
  fun gap t last => (h gap t last).later hnow

/-- The time the peer needs after a command is the least wait of its sequence (60_exceptions.md R215). -/
theorem commandGap_command (op : Op) : commandGap (encodeCommand op.command) = op.minWait := by
  cases op <;> rfl

theorem commandGap_le (bytes : List Byte) : commandGap bytes ≤ Config.tMeasMin := by
  unfold commandGap
  split
  · decide
  · split
    · exact le_rfl
    · exact Nat.zero_le _

theorem Op.command_injective : ∀ {op op' : Op}, op.command = op'.command → op = op'
  | .init, .init, _ | .measure, .measure, _ => rfl
  | .init, .measure, h | .measure, .init, h => absurd h (by decide)

/-- In a legal state the command in `cmd_buf` is that of the running sequence (log 10). -/
theorem Legal.op_of_cmdBuf {s : State} {op : Op} (legal : Legal s) (hs : s.step ≠ .idle)
    (hc : s.cmdBuf = op.command) : op = s.curOp := by
  obtain ⟨_, _, command⟩ := legal.busy hs
  exact Op.command_injective (hc.symm.trans command)

/-! ### The spacing the block keeps by itself (R241, R242) -/

theorem Timed.sampleReset {s : State} (h : Timed s) : Timed s.sampleReset :=
  ⟨h.spaced, h.past, h.waiting, h.passed⟩

/-- Outside a wait, time may pass. -/
theorem Timed.later {s t : State} (h : Timed s) (params : t.params = s.params)
    (log : t.busLog = s.busLog) (clock : s.clock ≤ t.clock) (before : s.step ≠ .wait)
    (after : t.step ≠ .wait) : Timed t where
  spaced := params ▸ log ▸ h.spaced
  past := log ▸ h.past.later clock
  waiting wait := absurd wait after
  passed _ := params ▸ log ▸ (h.passed before).later clock

/-- An event of the present extends a spaced history; a transaction does when no wait runs. -/
theorem Timed.spaced_cons {s : State} {e : BusEvent} (h : Timed s) (time : e.time = s.clock)
    (free : e.isTransaction = true → s.step ≠ .wait) : Spaced s.params.tick (e :: s.busLog) :=
  ⟨time ▸ h.past, fun transaction => time ▸ h.passed (free transaction), h.spaced⟩

/-- An event of the present after which the block keeps no time. -/
theorem Timed.logged {s t : State} {e : BusEvent} (h : Timed s) (params : t.params = s.params)
    (log : t.busLog = e :: s.busLog) (clock : t.clock = s.clock) (time : e.time = s.clock)
    (free : e.isTransaction = true → s.step ≠ .wait) (gap : e.gapAfter = 0)
    (after : t.step ≠ .wait) : Timed t where
  spaced := params ▸ log ▸ h.spaced_cons time free
  past := by
    rw [log, clock]
    exact time.le
  waiting wait := absurd wait after
  passed _ := by
    rw [log, clock]
    exact ⟨time.le, gap ▸ Nat.zero_le _⟩

theorem Timed.applyReset {s : State} (h : Timed s) : Timed s.applyReset :=
  h.logged (e := .reset s.step s.clock) rfl rfl rfl rfl (by simp [BusEvent.isTransaction]) rfl
    (by simp)

/-- At the end of a wait the time the peer needs after the command has passed. -/
theorem Timed.passed_of_waited {s : State} (h : Timed s) (legal : Legal s) (hs : s.step = .wait)
    (hle : s.curOp.waitTicks s.params ≤ s.waitCnt + 1) :
    GapPassed s.params.tick (s.clock + 1) s.busLog := by
  obtain ⟨tw, rest, log, elapsed⟩ := elapsed_of_waited legal h hs hle
  rw [← commandGap_command] at elapsed
  exact log ▸ elapsed

theorem BlockMove.timed {s t : State} (h : BlockMove s t) (legal : Legal s) (timed : Timed s) :
    Timed t := by
  cases h with
  | quiet | writeUnanswered | readUnanswered => exact timed
  | pause hs => exact timed.later rfl rfl (Nat.le_succ _) (by simp [hs]) (by simp [hs])
  | illegal hs | initAccepted hs | initRefused hs | measureAccepted hs | measureRefused hs
  | crcClr hs | crcByte hs | getstate hs | groupWrong hs | measured hs =>
    exact timed.later rfl rfl le_rfl (by simp [hs]) (by simp)
  | writeFailed hs | readFailed hs | readWrongLength hs | readDone hs =>
    exact timed.logged rfl rfl rfl rfl (by simp [hs]) rfl (by simp)
  | written hs hc =>
    obtain rfl := legal.op_of_cmdBuf (by simp [hs]) hc
    exact {
      spaced := timed.spaced_cons rfl (by simp [hs])
      past := le_rfl
      waiting := fun _ => ⟨s.clock, s.busLog, rfl, rfl⟩
      passed := fun after => absurd rfl after }
  | ticked hs =>
    obtain ⟨tw, rest, clock, log⟩ := timed.waiting hs
    exact {
      spaced := timed.spaced
      past := timed.past.later (Nat.le_succ _)
      waiting := fun _ => ⟨tw, rest, congrArg (· + 1) clock, log⟩
      passed := fun after => absurd hs after }
  | initDone hs hle | measureWaited hs hle =>
    exact {
      spaced := timed.spaced
      past := timed.past.later (Nat.le_succ _)
      waiting := by simp
      passed := fun _ => timed.passed_of_waited legal hs hle }

/-- Settles O40: a reset is an event after which the block keeps no time, and every move of the block keeps
a legal state's history spaced. -/
theorem commandSpacingKept : Obligations.CommandSpacingKept := by
  intro s t legal timed h
  rcases step_cases h with ⟨_, rfl⟩ | ⟨_, move⟩
  · exact timed.sampleReset.applyReset
  · exact move.timed legal.sampleReset timed.sampleReset

/-! ### The spacing a dutiful host secures (R243, R244) -/

theorem PeerReady.gapPassed {tick now : Nat} {log : List BusEvent} (h : PeerReady tick now log)
    (past : NotAfter now log) : GapPassed tick now log :=
  match log with
  | [] => trivial
  | .write _ _ true _ :: _ => h _ _ rfl
  | .write _ _ false _ :: _ | .read _ _ _ _ :: _ | .reset _ _ :: _ => ⟨past, Nat.zero_le _⟩

/-- A peer that was ready for every transaction was given the time the block keeps (R242). -/
theorem PeerSpaced.spaced {tick : Nat} {log : List BusEvent} (h : PeerSpaced tick log) :
    Spaced tick log := by
  induction log with
  | nil => trivial
  | cons e rest ih =>
    obtain ⟨past, ready, older⟩ := h
    exact ⟨past, fun transaction => (ready transaction).gapPassed past, ih older⟩

/-- The newest command needs at most `T_MEAS_MIN`, and it is no newer than the history. -/
theorem lastCommand_bounds {tick now gap t : Nat} {log : List BusEvent} (h : PeerSpaced tick log)
    (past : NotAfter now log) (last : lastCommand log = some (gap, t)) :
    gap ≤ Config.tMeasMin ∧ t ≤ now := by
  fun_induction lastCommand log generalizing now with
  | case1 => cases last
  | case2 _ bytes => cases last; exact ⟨commandGap_le bytes, past⟩
  | case3 => cases last; exact ⟨le_rfl, past⟩
  | case4 _ _ _ _ ih | case5 _ _ _ _ _ ih =>
    obtain ⟨older_past, _, older⟩ := h
    exact ih older (older_past.later past) last

theorem lastCommand_reset {cut : Step} (hcut : cut ≠ .cmdWrite) (t : Nat) (older : List BusEvent) :
    lastCommand (.reset cut t :: older) = lastCommand older := by
  cases cut with
  | cmdWrite => exact absurd rfl hcut
  | idle | wait | dataRead | check => rfl

/-- A peer to which the guard time of R243 was given after a reset is ready. -/
theorem peerReady_of_guarded {tick now t : Nat} {cut : Step} {older : List BusEvent}
    (spaced : PeerSpaced tick (.reset cut t :: older)) (past : t ≤ now)
    (guarded : ResetNearCommand tick cut t older → Elapsed tick Config.tMeasMin t now) :
    PeerReady tick now (.reset cut t :: older) := by
  intro gap tc last
  by_cases hcut : cut = .cmdWrite
  · subst hcut
    cases last
    exact guarded (.inl rfl)
  · rw [lastCommand_reset hcut] at last
    obtain ⟨older_past, _, older_spaced⟩ := spaced
    obtain ⟨hgap, htc⟩ := lastCommand_bounds older_spaced older_past last
    by_cases near : (t - tc) * tick < Config.tMeasMin
    · exact (guarded (.inr ⟨gap, tc, last, near⟩)).weaken hgap htc le_rfl
    · have far : Elapsed tick Config.tMeasMin tc t := ⟨htc, Nat.le_of_not_lt near⟩
      exact far.weaken hgap le_rfl past

theorem PeerTimed.sampleReset {s : State} (h : PeerTimed s) : PeerTimed s.sampleReset :=
  ⟨h.spaced, h.past, h.waiting, h.onBus, h.idleReady, h.idleFresh⟩

theorem State.starts_cases {s : State} {op : Op} (h : s.starts = some op) :
    s.step = .idle ∧ s.state = op.startState := by
  unfold State.starts at h
  split_ifs at h with _ hs
  split at h
  · split_ifs at h with hi hm
    · cases h; exact ⟨hs, hi.2⟩
    · cases h; exact ⟨hs, hm.2⟩
  · cases h

theorem State.starts_of_request {s : State} {op : Op} {w : Word} {rest : List HostMove}
    (hl : s.resetLine = false) (hs : s.step = .idle) (hh : s.host = .issue w :: rest)
    (hi : decodeRequest w = .ok op.instr) (hq : s.state = op.startState) : s.starts = some op := by
  cases op with
  | init =>
    obtain rfl := decodeRequest_init hi
    simp [State.starts, hl, hs, hh, hq, Op.request, Op.startState]
  | measure =>
    obtain rfl := decodeRequest_measure hi
    simp [State.starts, hl, hs, hh, hq, Op.request, Op.startState]

/-- Only an acceptance takes the block from IDLE to a command write. -/
theorem BlockMove.starts {s t : State} (h : BlockMove s.sampleReset t) (hl : s.resetLine = false)
    (before : s.step = .idle) (after : t.step = .cmdWrite) : ∃ op, s.starts = some op := by
  cases h with
  | initAccepted hs hh hi hq =>
    exact ⟨.init, State.starts_of_request hl hs hh hi hq⟩
  | measureAccepted hs hh hi hq =>
    exact ⟨.measure, State.starts_of_request hl hs hh hi hq⟩
  | quiet | pause | writeUnanswered | ticked | readUnanswered => simp [before] at after
  | illegal | initRefused | measureRefused | crcClr | crcByte | getstate | writeFailed | written
  | initDone | measureWaited | readFailed | readWrongLength | readDone | groupWrong | measured =>
    simp at after

/-- Where a dutiful host starts a sequence the peer is ready. -/
theorem PeerTimed.ready_of_starts {s : State} {op : Op} (h : PeerTimed s) (duties : HostKeepsDuties s)
    (hstart : s.starts = some op) : PeerReady s.params.tick s.clock s.busLog := by
  obtain ⟨hs, hq⟩ := State.starts_cases hstart
  cases op with
  | init =>
    rcases h.idleFresh hs hq with log | ⟨cut, t, older, log⟩
    · rw [log]; nofun
    · have spaced := log ▸ h.spaced
      have past := log ▸ h.past
      rw [log]
      exact peerReady_of_guarded spaced past (duties.afterReset hstart cut t older log)
  | measure =>
    rcases h.idleReady hs hq with ready | ⟨t, older, log⟩
    · exact ready
    · rw [log]
      intro gap tc last
      cases last
      exact duties.afterFailedWrite hstart _ _ t older log

/-- A state at IDLE is timed for the peer when the rules for READY and UNINITIALIZED hold. -/
theorem PeerTimed.of_idle {t : State} (spaced : PeerSpaced t.params.tick t.busLog)
    (past : NotAfter t.clock t.busLog) (hs : t.step = .idle)
    (ready : t.state = .ready → PeerReady t.params.tick t.clock t.busLog ∨
      ∃ tw rest, t.busLog = .write t.devAddr (encodeCommand Config.cmdMeasure) false tw :: rest)
    (fresh : t.state = .uninitialized →
      t.busLog = [] ∨ ∃ cut tr rest, t.busLog = .reset cut tr :: rest) : PeerTimed t where
  spaced := spaced
  past := past
  waiting h := by simp [hs] at h
  onBus h := by simp [hs] at h
  idleReady _ := ready
  idleFresh _ := fresh

/-- A state at READY whose peer is ready. -/
theorem PeerTimed.of_ready {t : State} (spaced : PeerSpaced t.params.tick t.busLog)
    (past : NotAfter t.clock t.busLog) (hs : t.step = .idle) (hq : t.state = .ready)
    (ready : PeerReady t.params.tick t.clock t.busLog) : PeerTimed t :=
  .of_idle spaced past hs (fun _ => .inl ready) (by simp [hq])

/-- A state in which a sequence is at the bus or at its check, and the peer is ready. -/
theorem PeerTimed.of_onBus {t : State} (spaced : PeerSpaced t.params.tick t.busLog)
    (past : NotAfter t.clock t.busLog) (hs : t.step = .cmdWrite ∨ t.step = .dataRead ∨ t.step = .check)
    (ready : PeerReady t.params.tick t.clock t.busLog) : PeerTimed t where
  spaced := spaced
  past := past
  waiting h := by simp [h] at hs
  onBus _ := ready
  idleReady h := by simp [h] at hs
  idleFresh h := by simp [h] at hs

/-- A state at WAIT whose history records the command write of the wait. -/
theorem PeerTimed.of_wait {t : State} (spaced : PeerSpaced t.params.tick t.busLog)
    (past : NotAfter t.clock t.busLog) (hs : t.step = .wait)
    (recorded : ∃ tw rest, t.clock = tw + t.waitCnt ∧
      t.busLog = .write t.devAddr (encodeCommand t.curOp.command) true tw :: rest) :
    PeerTimed t where
  spaced := spaced
  past := past
  waiting _ := recorded
  onBus h := by simp [hs] at h
  idleReady h := by simp [hs] at h
  idleFresh h := by simp [hs] at h

/-- An idle block stays so, and time may pass. -/
theorem PeerTimed.stays_idle {s t : State} (h : PeerTimed s) (before : s.step = .idle)
    (after : t.step = .idle) (state : t.state = s.state) (params : t.params = s.params)
    (log : t.busLog = s.busLog) (clock : s.clock ≤ t.clock) : PeerTimed t := by
  refine .of_idle ?_ ?_ after (fun hq => ?_) (fun hq => ?_)
  · exact params ▸ log ▸ h.spaced
  · exact log ▸ h.past.later clock
  · rw [params, log]
    exact (h.idleReady before (state ▸ hq)).imp_left (·.later clock)
  · rw [log]
    exact h.idleFresh before (state ▸ hq)

/-- A transaction of the present extends the history when it finds the peer ready. -/
theorem PeerTimed.spaced_cons {s : State} {e : BusEvent} (h : PeerTimed s) (time : e.time = s.clock)
    (ready : e.isTransaction = true → PeerReady s.params.tick s.clock s.busLog) :
    PeerSpaced s.params.tick (e :: s.busLog) :=
  ⟨time ▸ h.past, time ▸ ready, h.spaced⟩

theorem PeerTimed.timed_of_wait {s : State} (h : PeerTimed s) (hs : s.step = .wait) : Timed s where
  spaced := h.spaced.spaced
  past := h.past
  waiting := h.waiting
  passed after := absurd hs after

/-- At the end of a wait the peer has had the time it needs after the command. -/
theorem PeerTimed.ready_of_waited {s : State} (h : PeerTimed s) (legal : Legal s)
    (hs : s.step = .wait) (hle : s.curOp.waitTicks s.params ≤ s.waitCnt + 1) :
    PeerReady s.params.tick (s.clock + 1) s.busLog := by
  obtain ⟨tw, rest, log, elapsed⟩ := elapsed_of_waited legal (h.timed_of_wait hs) hs hle
  rw [log]
  intro gap t last
  cases last
  rwa [commandGap_command]

theorem PeerTimed.applyReset {s : State} (h : PeerTimed s) : PeerTimed s.applyReset :=
  .of_idle (h.spaced_cons (e := .reset s.step s.clock) rfl (by simp [BusEvent.isTransaction])) le_rfl
    rfl (by simp) (fun _ => .inr ⟨_, _, _, rfl⟩)

theorem BlockMove.peerTimed {s t : State} (h : BlockMove s t) (legal : Legal s) (peer : PeerTimed s)
    (accepted : s.step = .idle → t.step = .cmdWrite → PeerReady s.params.tick s.clock s.busLog) :
    PeerTimed t := by
  cases h with
  | quiet | writeUnanswered | readUnanswered => exact peer
  | pause hs => exact peer.stays_idle hs hs rfl rfl rfl (Nat.le_succ _)
  | illegal hs | initRefused hs | measureRefused hs | crcClr hs | crcByte hs | getstate hs =>
    exact peer.stays_idle hs rfl rfl rfl rfl le_rfl
  | initAccepted hs | measureAccepted hs =>
    exact .of_onBus peer.spaced peer.past (.inl rfl) (accepted hs rfl)
  | writeFailed hs hc =>
    have ready := peer.onBus (.inl hs)
    obtain rfl := legal.op_of_cmdBuf (by simp [hs]) hc
    refine .of_idle (peer.spaced_cons rfl fun _ => ready) le_rfl rfl (fun hq => .inr ?_) (fun hq => ?_)
    · cases hop : s.curOp with
      | init => simp [hop, Op.afterError] at hq
      | measure => exact ⟨s.clock, s.busLog, by simp [Op.command]⟩
    · cases hop : s.curOp <;> simp [hop, Op.afterError] at hq
  | written hs hc =>
    have ready := peer.onBus (.inl hs)
    obtain rfl := legal.op_of_cmdBuf (by simp [hs]) hc
    exact .of_wait (peer.spaced_cons rfl fun _ => ready) le_rfl rfl ⟨s.clock, s.busLog, rfl, rfl⟩
  | ticked hs =>
    obtain ⟨tw, rest, clock, log⟩ := peer.waiting hs
    exact .of_wait peer.spaced (peer.past.later (Nat.le_succ _)) hs
      ⟨tw, rest, congrArg (· + 1) clock, log⟩
  | initDone hs hle =>
    exact .of_ready peer.spaced (peer.past.later (Nat.le_succ _)) rfl rfl
      (peer.ready_of_waited legal hs hle)
  | measureWaited hs hle =>
    exact .of_onBus peer.spaced (peer.past.later (Nat.le_succ _)) (.inr (.inl rfl))
      (peer.ready_of_waited legal hs hle)
  | readFailed hs | readWrongLength hs =>
    have ready := peer.onBus (.inr (.inl hs))
    exact .of_ready (peer.spaced_cons rfl fun _ => ready) le_rfl rfl rfl ready
  | readDone hs =>
    have ready := peer.onBus (.inr (.inl hs))
    exact .of_onBus (peer.spaced_cons rfl fun _ => ready) le_rfl (.inr (.inr rfl)) ready
  | groupWrong hs | measured hs =>
    exact .of_ready peer.spaced peer.past rfl rfl (peer.onBus (.inr (.inr hs)))

/-- Settles O41: a reset only adds its own event; a move of the block finds the peer ready where it issues a
transaction, by its own waits or, where a sequence starts, by the host's duties. -/
theorem dutifulHostSpacesCommands : Obligations.DutifulHostSpacesCommands := by
  intro s t legal peer duties h
  rcases step_cases h with ⟨_, rfl⟩ | ⟨hl, move⟩
  · exact peer.sampleReset.applyReset
  · refine move.peerTimed legal.sampleReset peer.sampleReset fun before after => ?_
    obtain ⟨op, hstart⟩ := move.starts hl before after
    exact peer.ready_of_starts duties hstart

/-! ### Reset (R231, R232) -/

/-- Settles O8: each value is the one `State.reset` writes. -/
theorem resetRegisterValues : Obligations.ResetRegisterValues :=
  ⟨rfl, rfl, rfl, rfl, rfl, rfl, rfl, rfl⟩

/-- Settles O9: what `applyReset` writes; the reset's own event is no transaction. -/
theorem resetAbortsSequence : Obligations.ResetAbortsSequence := fun _ hl =>
  ⟨_, step_of_asserted hl, rfl, rfl, rfl, rfl, rfl, rfl, rfl, rfl, rfl, rfl, rfl, rfl⟩

theorem Step.onBus_eq_true_iff {sp : Step} : sp.onBus = true ↔ sp = .cmdWrite ∨ sp = .dataRead := by
  cases sp <;> simp [Step.onBus]

/-- Settles O10: `applyReset` leaves the world outside the block alone, and takes an answer from the oracle
only where the step it cuts had a transaction in progress. -/
theorem resetTakesTheCutOutcome : Obligations.ResetTakesTheCutOutcome := by
  refine fun s hl => ⟨_, step_of_asserted hl, rfl, rfl, rfl, rfl, rfl, fun hs => ?_, fun hs => ?_⟩
  · have cut := State.discardCut_onBus (s := s.sampleReset) (Step.onBus_eq_true_iff.mpr hs)
    simp [cut]
  · have cut := State.discardCut_offBus (s := s.sampleReset)
      (Bool.eq_false_iff.mpr (mt Step.onBus_eq_true_iff.mp (not_or.mpr hs)))
    simp [cut]

/-! ### The invariants right after reset -/

/-- Settles O35: the block is idle, and the free parameters meet R11. -/
theorem legalAtReset : Obligations.LegalAtReset :=
  .of_idle params_legal (Nat.two_pow_pos _) rfl rfl (.inl rfl)

/-- Settles O38: the history is empty. -/
theorem timedAtReset : Obligations.TimedAtReset where
  spaced := trivial
  past := trivial
  waiting h := by cases h
  passed _ := trivial

/-- Settles O39: both histories are empty. -/
theorem historiesLegalAtReset : Obligations.HistoriesLegalAtReset :=
  ⟨.of_idle trivial trivial rfl nofun (fun _ => .inl rfl), nofun, nofun⟩

/-! ### The bound of a wait (R39, R241) -/

theorem State.endWait_step_ne_wait (s : State) : s.endWait.step ≠ .wait := by
  unfold State.endWait
  split <;> simp

theorem State.endWait_waitCnt (s : State) : s.endWait.waitCnt = s.waitCnt := by
  unfold State.endWait
  split <;> rfl

/-- Settles O30: the ticks below the bound are `run_of_waiting`, and the tick after them ends the wait. -/
theorem waitEndsAtItsBound : Obligations.WaitEndsAtItsBound := by
  intro s n hu hs hn
  have run := run_of_waiting hu hs hn
  refine ⟨run, fun bound => ⟨(s.waited (n + 1)).endWait, ?_, State.endWait_step_ne_wait _, ?_⟩⟩
  · calc Host.Core.run core (n + 1) s
        _ = .next (s.waited n).sampleReset.waitTick :=
          run_snoc run (step_at_wait (resetLine_of_run hu run) hs)
        _ = .next (s.waited n).sampleReset.tick.endWait := congrArg _ (if_neg bound.not_lt)
        _ = .next (s.waited (n + 1)).endWait := by rw [State.waited_succ]
  · rw [State.endWait_waitCnt]
    exact bound

end Sys2Proof.Machine
